-- ==== Sys2Proof/Word.lean ====
section
/-!
DEFINITION. The plain value types of the block: words, readings and the three closed enumerations
(operating mode, scheduler state, factor display). Every register and port is an unsigned bit vector with bit 0
least significant (R8), a one-bit level is a Bool.
-/

namespace Sys2Proof

/-- A 32-bit quantity: `now`, `lastTs`, `cycleTime`, `tper`, `tcnt` (R7 TS_BITS). -/
abbrev Word := BitVec 32

/-- One operation word OPW (R89). -/
abbrev Byte := BitVec 8

/-- A 10-bit analog reading, 0 to 1023 (R6 ADC_BITS). -/
abbrev Reading := BitVec 10

/-- The operating mode (R37). The register `mode` never holds the fourth code ONE, so it has no constructor here. -/
inductive Mode where
  | div
  | mult
  | maxMult
deriving DecidableEq, Repr, Inhabited

/-- The state `ST` of the scheduler's state machine, the run bit of the secondary timer (R30). -/
inductive Phase where
  | idle
  | emit
deriving DecidableEq, Repr, Inhabited

/-- The factor-display signal `fdisp` (R36). The code 3 is never written, so it has no constructor here. -/
inductive Display where
  | normal
  | one
  | suppressed
deriving DecidableEq, Repr, Inhabited

/-- The factor class `fc` (R16, R92): F0 for factor 0, F1 for factor 1, FN for a factor above 1. -/
inductive FactorClass where
  | f0
  | f1
  | fn
deriving DecidableEq, Repr, Inhabited

end Sys2Proof
end

