-- ==== Sys2Proof/Config.lean ====
section
/-!
DEFINITION. What is fixed for a run: the document's constants (R6), the straps (R41 to R43), the parameters the
document leaves open (R7), the input alphabet of the environment (R86, R240), and the free values.
A legal parameter is legal by construction: an illegal one cannot be written down (R7, R211).
-/

namespace Sys2Proof.Config

/-- Number of inter-edge deltas in an averaging window (R6 N_AVG). -/
abbrev nAvg : Nat := 5

/-- Divisor of the index mapping (R6 ADC_RANGE). -/
abbrev adcRange : Nat := 1024

/-- Width of the MAX_MULT draw (R6 FACTOR_DRAW_BITS). -/
abbrev factorDrawBits : Nat := 4

/-- Width of the gate's draw (R6 GATE_DRAW_BITS). -/
abbrev gateDrawBits : Nat := 7

/-- The highest chance level (R6 CHANCE_MAX). -/
abbrev chanceMax : Nat := 100

/-- The straps: inputs that are constant while the block is out of reset (R16, R41, R42, R43). -/
structure Straps where
  /-- Polarity of the pin `gate_out` (R41). -/
  gateActiveHigh : Bool
  /-- A reset edge restarts the averaging window (R42). -/
  rstRestartsAvg : Bool
  /-- The mode the environment read from persistence; every two-bit value may be presented (R43). -/
  modeBoot : BitVec 2
deriving DecidableEq, Repr, Inhabited

/-- The straps at their defaults: active high (R41), no restart (R42), boot mode MULT (R99, R6 DEFAULT_MODE). -/
def Straps.default : Straps := { gateActiveHigh := true, rstRestartsAvg := false, modeBoot := 1 }

/-- CT_INIT, any value of 1 to 2^32 - 1; 0 is outside the legal values and cannot be given (R7, R211). -/
structure CtInit where
  val : Word
  nonzero : val ≠ 0
deriving DecidableEq, Repr

/-- CT_INIT from a word, refusing 0 (R7, R211). -/
def CtInit.ofWord? (w : Word) : Option CtInit := if h : w ≠ 0 then some ⟨w, h⟩ else none

/-- A replacement for RNG_STEP (R7): the returned bit and the next `lfsr` for each of the 2^16 states, in order.
Every state-transition and output function on 16 bits is such a list. -/
structure RngTable where
  entries : List (Bool × BitVec 16)
  full : entries.length = 65536
deriving DecidableEq, Repr

/-- RNG_STEP: the default Fibonacci register of R151, or any other generator, given by its table. -/
inductive RngStepSel where
  | fibonacci
  | table (t : RngTable)
deriving DecidableEq, Repr

/-- RANGE_METHOD (R155, R156). -/
inductive RangeMethod where
  | modulo
  | reject
deriving DecidableEq, Repr

/-- No entry is above the one after it. -/
def nondecreasing : List (BitVec 7) → Bool
  | [] => true
  | [_] => true
  | a :: b :: rest => decide (a ≤ b) && nondecreasing (b :: rest)

/-- What R158 asks of a replacement for CHANCE_MAP, as the list of the levels of the readings 0 to 1023:
non-decreasing, 0 to 0, 1023 to 100 (so every level is in [0, 100]). -/
def chanceTableLegal (l : List (BitVec 7)) : Bool :=
  decide (l.length = 1024) && decide (l[0]? = some 0) && decide (l[1023]? = some 100) && nondecreasing l

/-- A legal replacement for CHANCE_MAP (R158). -/
structure ChanceTable where
  entries : List (BitVec 7)
  legal : chanceTableLegal entries = true
deriving DecidableEq, Repr

/-- CHANCE_MAP: the default of R158 or a legal replacement. -/
inductive ChanceMapSel where
  | scaled
  | table (t : ChanceTable)
deriving DecidableEq, Repr

/-- The OPEN parameters of R7. RNG_SEED 0 is allowed: the generator is then stuck, which is no fault (R152). -/
structure Params where
  ctInit : CtInit
  rngSeed : BitVec 16
  rngStep : RngStepSel
  rangeMethod : RangeMethod
  chanceMap : ChanceMapSel
deriving DecidableEq, Repr

/-- The parameters at the defaults of R7. -/
def Params.default : Params :=
  { ctInit := ⟨500000, by decide⟩, rngSeed := 0xACE1, rngStep := .fibonacci, rangeMethod := .modulo,
    chanceMap := .scaled }

/-- The stimulus record STIM of one tick (R86): the input ports as sampled at that tick. -/
structure Stim where
  clockIn : Bool
  resetIn : Bool
  modeWe : Bool
  modeIn : BitVec 2
  pollReq : Bool
  adc0 : Reading
  adc1 : Reading
  adc2 : Reading
  adc3 : Reading
deriving DecidableEq, Repr, Inhabited

/-- All levels and requests 0, all readings 0. -/
def Stim.quiet : Stim :=
  { clockIn := false, resetIn := false, modeWe := false, modeIn := 0, pollReq := false,
    adc0 := 0, adc1 := 0, adc2 := 0, adc3 := 0 }

/-- What the environment does next: present a tick's stimulus, or assert the pin `rst_n` (R240, R243) and release it
with the given strap values (a strap may change only while reset is asserted, R41, R42, R43). -/
inductive Input where
  | tick (stim : Stim)
  | hardReset (straps : Straps)
deriving DecidableEq, Repr, Inhabited

/-- FREE VALUE. The environment's `n`-th input where the run gives none: any stimulus is legal input (R86), the
environment chooses it freely (R18, R65). -/
opaque freeInput : Nat → Input

/-- FREE VALUE. The quotient `cycleTime / (2 × factor)` for a factor of 0, which the rules never compute (R9, R196):
CLK_EDGE.MULT and CLK_EDGE.MAXMULT are performed for a factor above 1 only. -/
opaque quotientByZero : Word → Word

/-- FREE VALUES. The draw, and how many draws have then been made, for a rejecting draw (R156) that no generator state
ever ends, given the width, the bounds and the old `lfsr`. The contract R157 (d) excludes such a generator. -/
opaque endlessDraw : Nat → Nat → Nat → BitVec 16 → Nat × Nat

end Sys2Proof.Config
end

