-- ==== Sys2Proof/Syntax.lean ====
section
/-!
DEFINITION. The operations of the block as syntax: one constructor per row of the operation map (R94). The operand `m`
of four of them is the raw two-bit mode field of the operation word (R91); which values are words the block forms is
in `WellFormed`.
-/

namespace Sys2Proof

/-- The fifteen operation variants of R5 and R94. -/
inductive Instr where
  /-- NOP, `00000000` (R192). -/
  | nop
  /-- TMR_TICK, `001mm000` (R183). -/
  | tmrTick (m : BitVec 2)
  /-- RST_EDGE.DIV, `01000000` (R184, R185). -/
  | rstEdgeDiv
  /-- RST_EDGE.MULT, `01001000` (R184, R186). -/
  | rstEdgeMult
  /-- RST_EDGE.MAXMULT, `01010000` (R184, R186). -/
  | rstEdgeMaxmult
  /-- CLK_EDGE.F0, `011mm000` (R176, R177). -/
  | clkEdgeF0 (m : BitVec 2)
  /-- CLK_EDGE.F1, `011mm010` (R176, R178). -/
  | clkEdgeF1 (m : BitVec 2)
  /-- CLK_EDGE.DIV, `01100100` (R176, R179). -/
  | clkEdgeDiv
  /-- CLK_EDGE.MULT, `01101100` (R176, R180). -/
  | clkEdgeMult
  /-- CLK_EDGE.MAXMULT, `01110100` (R176, R181). -/
  | clkEdgeMaxmult
  /-- MODE_SET.DIV, `10000000` (R188). -/
  | modeSetDiv
  /-- MODE_SET.MULT, `10001000` (R188). -/
  | modeSetMult
  /-- MODE_SET.MAXMULT, `10010000` (R188). -/
  | modeSetMaxmult
  /-- MODE_SET.IGN, `10011000` (R189). -/
  | modeSetIgn
  /-- POLL, `101mm000` (R190). -/
  | poll (m : BitVec 2)
deriving DecidableEq, Repr

end Sys2Proof
end

