-- ==== Sys2Proof/WellFormed.lean ====
section
/-!
DEFINITION. Which instructions are words the block can form: where the word has a mode field `m`, it is the value of the
`mode` register and never 0b11 (R91, R94, R95).
-/

namespace Sys2Proof

/-- The mode field names one of DIV, MULT, MAX_MULT (R91). -/
def modeFieldOk (m : BitVec 2) : Bool := decide (m ≠ 3)

/-- The instruction is one of the 23 words of R94. -/
def Instr.wellFormed : Instr → Bool
  | .nop => true
  | .tmrTick m => modeFieldOk m
  | .rstEdgeDiv => true
  | .rstEdgeMult => true
  | .rstEdgeMaxmult => true
  | .clkEdgeF0 m => modeFieldOk m
  | .clkEdgeF1 m => modeFieldOk m
  | .clkEdgeDiv => true
  | .clkEdgeMult => true
  | .clkEdgeMaxmult => true
  | .modeSetDiv => true
  | .modeSetMult => true
  | .modeSetMaxmult => true
  | .modeSetIgn => true
  | .poll m => modeFieldOk m

end Sys2Proof
end

