-- ==== Sys2Proof/Decode.lean ====
section
/-!
DEFINITION. The operation word OPW (R89 to R95): its codes, the decoder from bytes, which refuses every reserved word
by name, and the encoder.
-/

namespace Sys2Proof

/-- The code of a mode on a port or in a word (R37, R91): DIV 0, MULT 1, MAX_MULT 2. -/
def Mode.bits : Mode → BitVec 2
  | .div => 0
  | .mult => 1
  | .maxMult => 2

/-- The mode a code names; the fourth code, ONE, names none (R37, R91). -/
def Mode.ofBits? (b : BitVec 2) : Option Mode :=
  if b = 0 then some .div else if b = 1 then some .mult else if b = 2 then some .maxMult else none

/-- The mode after reset for a boot strap: 3 is read as MULT (R43). -/
def Mode.ofBoot (b : BitVec 2) : Mode := (Mode.ofBits? b).getD .mult

/-- The code of a display value on the port `fdisp_out` (R36). -/
def Display.bits : Display → BitVec 2
  | .normal => 0
  | .one => 1
  | .suppressed => 2

/-- The code of the scheduler's state (R30): IDLE 0, EMIT 1. -/
def Phase.bit : Phase → BitVec 1
  | .idle => 0
  | .emit => 1

/-- The `fc` field of a factor class (R92). -/
def FactorClass.bits : FactorClass → BitVec 2
  | .f0 => 0
  | .f1 => 1
  | .fn => 2

/-- The six operations (R5). -/
inductive Op where
  | nop
  | tmrTick
  | rstEdge
  | clkEdge
  | modeSet
  | poll
deriving DecidableEq, Repr

/-- The `op` field (R90). -/
def Op.bits : Op → BitVec 3
  | .nop => 0
  | .tmrTick => 1
  | .rstEdge => 2
  | .clkEdge => 3
  | .modeSet => 4
  | .poll => 5

/-- The operation word: `op` in [7:5], `m` in [4:3], `fc` in [2:1], the reserved bit [0] always 0 (R89). -/
def opw (op : BitVec 3) (m fc : BitVec 2) : Byte := op ++ m ++ fc ++ (0 : BitVec 1)

/-- Why a word is refused (R95). -/
inductive DecodeError where
  /-- There is no byte to decode. -/
  | noWord
  /-- Bit 0 is set. -/
  | reservedBit
  /-- `op` is 0b110 or 0b111. -/
  | reservedOp
  /-- `fc` is 0b11. -/
  | reservedClass
  /-- `fc` is not 0b00 in a word other than CLK_EDGE. -/
  | classOutsideClkEdge
  /-- `m` is 0b11 in a TMR_TICK, RST_EDGE, CLK_EDGE or POLL word. -/
  | reservedMode
  /-- A NOP word with `m` other than 0b00. -/
  | nopWithMode
deriving DecidableEq, Repr

/-- A CLK_EDGE word's variant from its mode field (not 0b11) and class field (R92, R94). -/
def decodeClkEdge (m fc : BitVec 2) : Except DecodeError Instr :=
  if fc = 0 then .ok (.clkEdgeF0 m)
  else if fc = 1 then .ok (.clkEdgeF1 m)
  else if fc = 2 then
    (if m = 0 then .ok .clkEdgeDiv else if m = 1 then .ok .clkEdgeMult else .ok .clkEdgeMaxmult)
  else .error .reservedClass

/-- An RST_EDGE word's variant from its mode field (not 0b11) (R94). -/
def decodeRstEdge (m : BitVec 2) : Instr :=
  if m = 0 then .rstEdgeDiv else if m = 1 then .rstEdgeMult else .rstEdgeMaxmult

/-- A MODE_SET word's variant from its mode field (R94). -/
def decodeModeSet (m : BitVec 2) : Instr :=
  if m = 0 then .modeSetDiv else if m = 1 then .modeSetMult else if m = 2 then .modeSetMaxmult else .modeSetIgn

/-- The decoder of one operation word, total, refusing each reserved word by name (R94, R95). -/
def decode (w : Byte) : Except DecodeError Instr :=
  let op := w.extractLsb' 5 3
  let m := w.extractLsb' 3 2
  let fc := w.extractLsb' 1 2
  if w.getLsbD 0 then .error .reservedBit
  else if op = 6 ∨ op = 7 then .error .reservedOp
  else if fc = 3 then .error .reservedClass
  else if op ≠ Op.clkEdge.bits ∧ fc ≠ 0 then .error .classOutsideClkEdge
  else if op = Op.nop.bits then (if m = 0 then .ok .nop else .error .nopWithMode)
  else if op = Op.modeSet.bits then .ok (decodeModeSet m)
  else if m = 3 then .error .reservedMode
  else if op = Op.tmrTick.bits then .ok (.tmrTick m)
  else if op = Op.rstEdge.bits then .ok (decodeRstEdge m)
  else if op = Op.clkEdge.bits then decodeClkEdge m fc
  else .ok (.poll m)

/-- The decoder on a list of bytes: the first byte's instruction and the bytes after it; every word is one byte long,
whatever it says (R85, R98). -/
def decodeBytes : List Byte → Except DecodeError (Instr × List Byte)
  | [] => .error .noWord
  | w :: rest =>
    match decode w with
    | .ok i => .ok (i, rest)
    | .error e => .error e

/-- The word of an instruction (R94). -/
def encode : Instr → Byte
  | .nop => opw Op.nop.bits 0 0
  | .tmrTick m => opw Op.tmrTick.bits m 0
  | .rstEdgeDiv => opw Op.rstEdge.bits Mode.div.bits 0
  | .rstEdgeMult => opw Op.rstEdge.bits Mode.mult.bits 0
  | .rstEdgeMaxmult => opw Op.rstEdge.bits Mode.maxMult.bits 0
  | .clkEdgeF0 m => opw Op.clkEdge.bits m FactorClass.f0.bits
  | .clkEdgeF1 m => opw Op.clkEdge.bits m FactorClass.f1.bits
  | .clkEdgeDiv => opw Op.clkEdge.bits Mode.div.bits FactorClass.fn.bits
  | .clkEdgeMult => opw Op.clkEdge.bits Mode.mult.bits FactorClass.fn.bits
  | .clkEdgeMaxmult => opw Op.clkEdge.bits Mode.maxMult.bits FactorClass.fn.bits
  | .modeSetDiv => opw Op.modeSet.bits Mode.div.bits 0
  | .modeSetMult => opw Op.modeSet.bits Mode.mult.bits 0
  | .modeSetMaxmult => opw Op.modeSet.bits Mode.maxMult.bits 0
  | .modeSetIgn => opw Op.modeSet.bits 3 0
  | .poll m => opw Op.poll.bits m 0

/-- The name the operation map gives an instruction (R94, R101). -/
def mnemonic : Instr → String
  | .nop => "NOP"
  | .tmrTick _ => "TMR_TICK"
  | .rstEdgeDiv => "RST_EDGE.DIV"
  | .rstEdgeMult => "RST_EDGE.MULT"
  | .rstEdgeMaxmult => "RST_EDGE.MAXMULT"
  | .clkEdgeF0 _ => "CLK_EDGE.F0"
  | .clkEdgeF1 _ => "CLK_EDGE.F1"
  | .clkEdgeDiv => "CLK_EDGE.DIV"
  | .clkEdgeMult => "CLK_EDGE.MULT"
  | .clkEdgeMaxmult => "CLK_EDGE.MAXMULT"
  | .modeSetDiv => "MODE_SET.DIV"
  | .modeSetMult => "MODE_SET.MULT"
  | .modeSetMaxmult => "MODE_SET.MAXMULT"
  | .modeSetIgn => "MODE_SET.IGN"
  | .poll _ => "POLL"

/-- The bytes of a table word of `nbits` bits, the first at the lowest place, every bit above `nbits` zero. -/
def tableBytes (nbits w : Nat) : List Byte :=
  (List.range ((nbits + 7) / 8)).map fun k => BitVec.ofNat 8 (w % 2 ^ nbits / 2 ^ (8 * k))

/-- The instruction the decoder reads from an instruction of the operation map whose bits are `w`. -/
def decodeTableWord (nbits w : Nat) : Option Instr :=
  match decodeBytes (tableBytes nbits w) with
  | .ok (i, _) => some i
  | .error _ => none

end Sys2Proof
end

