-- ==== Sys2Proof/Machine/State.lean ====
section
/-!
DEFINITION. The state of the block: the 18 registers of R20 (237 bits), the constants of the run (straps and open
parameters), and the model's own three fields for the input side. Plain data throughout.
-/

namespace Sys2Proof.Machine

open Sys2Proof.Config

structure State where
  /-- Free-running microsecond counter (R21). -/
  now : Word
  /-- `clock_in` as sampled in the previous tick (R22). -/
  prevClk : Bool
  /-- `reset_in` as sampled in the previous tick (R22). -/
  prevRst : Bool
  /-- Timestamp of the previous clock edge (R23). -/
  lastTs : Word
  /-- Running sum of the deltas of the current window (R24). -/
  sum : BitVec 35
  /-- Number of deltas in `sum` (R25). -/
  cnt : BitVec 3
  /-- Current period estimate in microseconds (R26). -/
  cycleTime : Word
  /-- Factor of the current cycle (R27). -/
  factor : BitVec 5
  /-- Last gate decision (R28). -/
  gate : Bool
  /-- Pulse counter, saturating (R29). -/
  pcnt : BitVec 8
  /-- `ST`, the scheduler's state and the timer's run bit (R30). -/
  st : Phase
  /-- Programmed period of the secondary timer (R31). -/
  tper : Word
  /-- Down-counter of the secondary timer (R32). -/
  tcnt : Word
  /-- Level of the output before polarity (R33). -/
  out : Bool
  /-- State of the pseudo-random generator (R34). -/
  lfsr : BitVec 16
  /-- Chance indicator (R35). -/
  chanceInd : Bool
  /-- Factor-display signal (R36). -/
  fdisp : Display
  /-- Operating mode (R37). -/
  mode : Mode
  /-- The straps of the run (R41, R42, R43); changed only by a hardware reset. -/
  straps : Straps
  /-- The open parameters of the hardware (R7); never changed. -/
  params : Params
  /-- The input ports as sampled in the current tick (R65, R86): what AdcRead and MODE_SET's `mode_in` read. The model's
  own field, written at the start of every step. -/
  pins : Stim
  /-- The inputs the run gives for the ticks to come, the next one first. The model's own field. -/
  inputs : List Input
  /-- How many free inputs have been taken. The model's own field: the counter a free input is drawn with. -/
  freeCount : Nat
deriving DecidableEq, Repr

/-- The block has no fault outcome: every operation is total and nothing stops it (R210). -/
inductive Fault
deriving DecidableEq, Repr

/-- Why the model refuses its input. None of these is an outcome of the block (R210). -/
inductive Refusal where
  /-- An arm of `exec` whose instruction has no meaning yet. No arm raises it. Safe: nothing is claimed of it. -/
  | notModelled (mnemonic : String)
  /-- Raised by the dispatcher of a tick if the word it formed were reserved (R95). It never is: the word lemmas under
  Laws prove it. Safe. -/
  | reservedWord (e : DecodeError)
  /-- Raised by the runner of trace programs for CT_INIT 0, which a model must refuse (R211). Safe. -/
  | illegalParameter
  /-- Raised by the runner of trace programs for an ill-formed program (R99). Safe. -/
  | illFormedTrace
deriving DecidableEq, Repr

/-- The registers after a hardware reset with the given straps and parameters (R49, R241); nothing is left of what was
there before (R243). -/
def State.resetWith (straps : Straps) (params : Params) (inputs : List Input) (freeCount : Nat) : State :=
  { now := 0, prevClk := true, prevRst := true, lastTs := 0, sum := 0, cnt := 0,
    cycleTime := params.ctInit.val, factor := 1, gate := false, pcnt := 0, st := .idle, tper := 0, tcnt := 0,
    out := false, lfsr := params.rngSeed, chanceInd := decide (Mode.ofBoot straps.modeBoot = .maxMult),
    fdisp := .normal, mode := Mode.ofBoot straps.modeBoot,
    straps := straps, params := params, pins := Stim.quiet, inputs := inputs, freeCount := freeCount }

/-- The machine right after reset, with the default straps and parameters and no input given. -/
def State.reset : State := State.resetWith Straps.default Params.default [] 0

end Sys2Proof.Machine
end

