-- ==== Sys2Proof/Machine/Operands.lean ====
section
/-!
DEFINITION. The operands of the operations (R93): the analog channels, the two lookup tables, the maps from a reading
to a table index and to a chance level, and the packing of the stimulus record.
-/

namespace Sys2Proof.Machine

open Sys2Proof.Config

/-- MULT_TABLE (R60). -/
def multTable : List (BitVec 5) := [0, 1, 2, 3, 4, 5]

/-- DIV_TABLE (R61). -/
def divTable : List (BitVec 5) := [0, 1, 2, 3, 4, 5, 6, 7, 8, 9, 16]

/-- `LutRead(T, i)`: entry `min(i, size(T) - 1)` (R62). -/
def lutRead (table : List (BitVec 5)) (i : Nat) : BitVec 5 := table.getD (min i (table.length - 1)) 0

/-- `AdcRead(ch)`: the reading of channel `ch` as sampled in the current tick (R64, R65). -/
def adcRead (s : State) : Fin 4 → Reading
  | 0 => s.pins.adc0
  | 1 => s.pins.adc1
  | 2 => s.pins.adc2
  | 3 => s.pins.adc3

/-- The larger of two readings, taken before any scaling (R93, R137, R159). -/
def maxReading (a b : Reading) : Nat := max a.toNat b.toNat

/-- `FS_Index(r, n) = min(n - 1, (r × n) / 1024)` (R135). -/
def fsIndex (r n : Nat) : Nat := min (n - 1) (r * n / adcRange)

/-- A reading's value in the MULT table (R137, R140). -/
def multValue (r : Nat) : BitVec 5 := lutRead multTable (fsIndex r 6)

/-- A reading's value in the DIV table (R138). -/
def divValue (r : Nat) : BitVec 5 := lutRead divTable (fsIndex r 11)

/-- `ChanceMap(r)` for the CHANCE_MAP of the hardware; the default is `min(100, (r × 101) / 1024)` (R158). -/
def chanceMap (sel : ChanceMapSel) (r : Nat) : Nat :=
  match sel with
  | .scaled => min chanceMax (r * 101 / adcRange)
  | .table t => (t.entries.getD r 0).toNat

/-- The chance level of the current tick (R159). -/
def chanceLevel (s : State) : Nat := chanceMap s.params.chanceMap (maxReading (adcRead s 0) (adcRead s 1))

/-- A one-bit field of a record. -/
def bit (b : Bool) : BitVec 1 := BitVec.ofBool b

/-- The stimulus record as its 46 bits (R86). -/
def packStim (x : Stim) : BitVec 46 :=
  x.adc3 ++ x.adc2 ++ x.adc1 ++ x.adc0 ++ bit x.pollReq ++ x.modeIn ++ bit x.modeWe ++ bit x.resetIn ++ bit x.clockIn

/-- The stimulus record of 46 bits; every value is legal (R86). -/
def unpackStim (w : BitVec 46) : Stim :=
  { clockIn := w.getLsbD 0, resetIn := w.getLsbD 1, modeWe := w.getLsbD 2, modeIn := w.extractLsb' 3 2,
    pollReq := w.getLsbD 5, adc0 := w.extractLsb' 6 10, adc1 := w.extractLsb' 16 10,
    adc2 := w.extractLsb' 26 10, adc3 := w.extractLsb' 36 10 }

end Sys2Proof.Machine
end

