-- ==== Sys2Proof/Machine/Flags.lean ====
section
/-!
DEFINITION. The status computations (R46): factor classes and the display they show, the gate's comparison, the
saturating pulse count with its two threshold tests, and the output pins.
-/

namespace Sys2Proof.Machine

open Sys2Proof.Config

/-- The class of a factor (R92). -/
def factorClass (f : BitVec 5) : FactorClass := if f = 0 then .f0 else if f = 1 then .f1 else .fn

/-- The display value of a factor class (R36, R190). -/
def displayOf : FactorClass → Display
  | .f0 => .suppressed
  | .f1 => .one
  | .fn => .normal

/-- The gate's decision for a draw and a chance level: `draw < chanceLevel` (R160). -/
def gateDecision (draw level : Nat) : Bool := decide (draw < level)

/-- `sat_8(pcnt + 1)` (R29). -/
def pcntSucc (p : BitVec 8) : BitVec 8 := BitVec.ofNat 8 (min (p.toNat + 1) 255)

/-- The stop test of TMR_TICK: the pulse counter exceeds `2 × factor` (R183). -/
def pcntExceeds (p : BitVec 8) (f : BitVec 5) : Bool := decide (2 * f.toNat < p.toNat)

/-- The divider's test: the pulse counter has reached the factor (R179). -/
def pcntReached (p : BitVec 8) (f : BitVec 5) : Bool := decide (f.toNat ≤ p.toNat)

/-- Output port `gate_out`: `out` XOR (NOT GATE_ACTIVE_HIGH) (R33, R45). -/
def gateOut (s : State) : Bool := xor s.out (!s.straps.gateActiveHigh)

/-- Output port `chance_led` (R35, R45). -/
def chanceLed (s : State) : Bool := s.chanceInd

/-- Output port `fdisp_out` (R36, R45). -/
def fdispOut (s : State) : BitVec 2 := s.fdisp.bits

/-- Output port `mode_sig` (R38, R45). -/
def modeSig (s : State) : BitVec 2 := s.mode.bits

/-- Output port `emitting` (R45). -/
def emitting (s : State) : BitVec 1 := s.st.bit

end Sys2Proof.Machine
end

