-- ==== Sys2Proof/Machine/Rng.lean ====
section
/-!
DEFINITION. The RandomNumberGenerator (R150 to R157): one bit, a draw of `n` bits, a draw brought into a range. Each
takes the old `lfsr` and answers its result with the new one.
-/

namespace Sys2Proof.Machine

open Sys2Proof.Config

/-- `RngStep()` (R151): the default register, shifting right, or the table of a replacement (R7 RNG_STEP). -/
def rngStep (sel : RngStepSel) (l : BitVec 16) : Bool × BitVec 16 :=
  match sel with
  | .fibonacci =>
    let fb := xor (xor (xor (l.getLsbD 0) (l.getLsbD 2)) (l.getLsbD 3)) (l.getLsbD 5)
    (l.getLsbD 0, bit fb ++ l.extractLsb' 1 15)
  | .table t => t.entries.getD l.toNat (false, 0)

/-- `n` more bits onto `v`, the most significant first (R153). -/
def rngBitsOnto (sel : RngStepSel) : Nat → Nat → BitVec 16 → Nat × BitVec 16
  | 0, v, l => (v, l)
  | n + 1, v, l => rngBitsOnto sel n (2 * v + (rngStep sel l).1.toNat) (rngStep sel l).2

/-- `RngBits(n)` (R153). -/
def rngBits (sel : RngStepSel) (n : Nat) (l : BitVec 16) : Nat × BitVec 16 := rngBitsOnto sel n 0 l

/-- Draws `n`-bit values until one is below `span`, at most `tries` times; `none` if none was (R156). -/
def rejectLoop (sel : RngStepSel) (n span : Nat) : Nat → BitVec 16 → Option (Nat × BitVec 16)
  | 0, _ => none
  | tries + 1, l =>
    if (rngBits sel n l).1 < span then some (rngBits sel n l)
    else rejectLoop sel n span tries (rngBits sel n l).2

/-- The number of `lfsr` values. A loop of R156 that has rejected this many draws rejects every later one too: each of
them starts from a value of `lfsr` an earlier one started from. -/
abbrev lfsrStates : Nat := 65536

/-- The `lfsr` after `k` draws of `n` bits. -/
def lfsrAfterDraws (sel : RngStepSel) (n : Nat) : Nat → BitVec 16 → BitVec 16
  | 0, l => l
  | k + 1, l => lfsrAfterDraws sel n k (rngBits sel n l).2

/-- The draw below `span` of a bounded draw, by the RANGE_METHOD of the hardware (R155, R156). -/
def drawBelow (p : Params) (n lo hi : Nat) (l : BitVec 16) : Nat × BitVec 16 :=
  let span := hi - lo + 1
  match p.rangeMethod with
  | .modulo => ((rngBits p.rngStep n l).1 % span, (rngBits p.rngStep n l).2)
  | .reject =>
    match rejectLoop p.rngStep n span lfsrStates l with
    | some r => r
    | none => ((endlessDraw n lo hi l).1 % span, lfsrAfterDraws p.rngStep n (endlessDraw n lo hi l).2 l)

/-- `RngRange(n, lo, hi)` (R155, R156). -/
def rngRange (p : Params) (n lo hi : Nat) (l : BitVec 16) : Nat × BitVec 16 :=
  (lo + (drawBelow p n lo hi l).1, (drawBelow p n lo hi l).2)

end Sys2Proof.Machine
end

