-- ==== Sys2Proof/Machine/Ops.lean ====
section
/-!
DEFINITION. The shared sub-operations over the registers: the period estimator (file 40), the factor selector (41), the
probability gate (42) and the secondary timer (43), and the sequencing of outcomes. The block raises no exception and
has no return from one (R210, R216, R217), so there is no operation that takes one.
-/

namespace Sys2Proof.Machine

open Sys2Proof.Config

/-- What an operation answers. -/
abbrev Result := Host.Outcome State Fault Refusal

/-- One operation after another: the second sees the state the first left (R171). -/
def andThen (r : Result) (k : State → Result) : Result :=
  match r with
  | .next s => k s
  | .fault f => .fault f
  | .refused e => .refused e

/-- `TimerStop()` (R174): `tper` and `tcnt` keep their values. -/
def timerStop (s : State) : State := { s with st := .idle }

/-- `max(1, P)`: a timer period of 0 is counted as 1 tick (R173). -/
def atLeastOne (p : Word) : Word := if p = 0 then 1 else p

/-- `TimerStart(P)` (R173): a period of 0 is counted as 1, `tper` keeps the 0. -/
def timerStart (p : Word) (s : State) : State := { s with tper := p, tcnt := atLeastOne p, st := .emit }

/-- The delta of R121 and R123: `t - lastTs` modulo 2^32. -/
def peDelta (t : Word) (s : State) : Word := t - s.lastTs

/-- `PE_OnEdge(t)` (R121, R122); the value it returns is `cycleTime` of the state it leaves. The arithmetic is exact and
narrowed at the end; the result is in range wherever `cnt` and `sum` are (R24, R25, R122). -/
def peOnEdge (t : Word) (s : State) : State :=
  let sum' := s.sum.toNat + (peDelta t s).toNat
  let cnt' := s.cnt.toNat + 1
  if cnt' = nAvg then
    { s with lastTs := t, cycleTime := BitVec.ofNat 32 (max 1 (sum' / nAvg)), sum := 0, cnt := 0 }
  else
    { s with lastTs := t, sum := BitVec.ofNat 35 sum', cnt := BitVec.ofNat 3 cnt' }

/-- `PE_Restart()` (R126): `lastTs` and `cycleTime` are kept. -/
def peRestart (s : State) : State := { s with sum := 0, cnt := 0 }

/-- The two MAX_MULT bounds, in order (R140). -/
def maxMultBounds (s : State) : Nat × Nat :=
  let fa := (multValue (adcRead s 2).toNat).toNat
  let fb := (multValue (adcRead s 3).toNat).toNat
  (min fa fb, max fa fb)

/-- `FS_Select(mode)` (R137 to R140): the factor and the new `lfsr`, which only MAX_MULT mode changes. -/
def fsSelect (s : State) : BitVec 5 × BitVec 16 :=
  match s.mode with
  | .mult => (multValue (maxReading (adcRead s 2) (adcRead s 3)), s.lfsr)
  | .div => (divValue (maxReading (adcRead s 2) (adcRead s 3)), s.lfsr)
  | .maxMult =>
    let r := rngRange s.params factorDrawBits (maxMultBounds s).1 (maxMultBounds s).2 s.lfsr
    (BitVec.ofNat 5 r.1, r.2)

/-- `FS_Preview(mode)` (R142): no draw and no write. -/
def fsPreview (s : State) : FactorClass :=
  match s.mode with
  | .mult => factorClass (multValue (maxReading (adcRead s 2) (adcRead s 3)))
  | .div => factorClass (divValue (maxReading (adcRead s 2) (adcRead s 3)))
  | .maxMult =>
    let fa := multValue (adcRead s 2).toNat
    let fb := multValue (adcRead s 3).toNat
    if fa ≠ fb then .fn else factorClass fa

/-- The draw of `PG_Decide()`: a value of 0 to 99 and the new `lfsr` (R160). -/
def gateDraw (s : State) : Nat × BitVec 16 := rngRange s.params gateDrawBits 0 99 s.lfsr

/-- The decision of `PG_Decide()` (R160). -/
def pgResult (s : State) : Bool := gateDecision (gateDraw s).1 (chanceLevel s)

/-- `PG_Decide()` with its caller's `gate <- g` (R160, R179, R180): the draw is made whatever the chance level is. -/
def pgDecide (s : State) : State :=
  { s with lfsr := (gateDraw s).2, chanceInd := pgResult s, gate := pgResult s }

/-- `ct / 2` (R178, R180). -/
def halfPeriod (ct : Word) : Word := ct / 2

/-- `ct / (2 × factor)` (R180, R181); a free value for the factor 0, for which no rule computes it (R196). -/
def ratchetPeriod (ct : Word) (f : BitVec 5) : Word :=
  if f = 0 then quotientByZero ct else BitVec.ofNat 32 (ct.toNat / (2 * f.toNat))

/-- CLK_EDGE, the part all variants share (R176): stop the timer, feed the estimator with the tick number `now`, select
the factor and write it. -/
def clkCommon (s : State) : State :=
  let s1 := peOnEdge s.now (timerStop s)
  { s1 with lfsr := (fsSelect s1).2, factor := (fsSelect s1).1 }

/-- RST_EDGE, the part all variants share (R184): the strap restarts the averaging window, in every mode. -/
def rstCommon (s : State) : State := if s.straps.rstRestartsAvg then peRestart s else s

end Sys2Proof.Machine
end

