-- ==== Sys2Proof/Machine/ClkEdge.lean ====
section
/-!
DEFINITION. The five variants of CLK_EDGE (R176 to R181): the common part, then the variant the word names (R92). The
mode field of the word is a label; the operation reads the `mode` register (R91, R139).
-/

namespace Sys2Proof.Machine

/-- CLK_EDGE.F0 (R176, R177). -/
def execClkEdgeF0 (_m : BitVec 2) (s : State) : Result :=
  .next { clkCommon s with out := false, fdisp := .suppressed }

/-- CLK_EDGE.F1 (R176, R178). -/
def execClkEdgeF1 (_m : BitVec 2) (s : State) : Result :=
  let s1 := { clkCommon s with pcnt := 0 }
  .next { timerStart (halfPeriod s1.cycleTime) s1 with out := true, fdisp := .one }

/-- CLK_EDGE.DIV (R176, R179). -/
def execClkEdgeDiv (s : State) : Result :=
  let s1 := clkCommon s
  let s2 := pgDecide { s1 with fdisp := .normal, pcnt := pcntSucc s1.pcnt }
  if s2.gate && pcntReached s2.pcnt s2.factor then .next { s2 with pcnt := 0, out := true }
  else .next { s2 with out := false }

/-- CLK_EDGE.MULT (R176, R180). -/
def execClkEdgeMult (s : State) : Result :=
  let s1 := pgDecide { clkCommon s with fdisp := .normal, pcnt := 0, out := true }
  .next (timerStart (if s1.gate then ratchetPeriod s1.cycleTime s1.factor else halfPeriod s1.cycleTime) s1)

/-- CLK_EDGE.MAXMULT (R176, R181). -/
def execClkEdgeMaxmult (s : State) : Result :=
  let s1 := { clkCommon s with fdisp := .normal, pcnt := 0, out := true }
  .next (timerStart (ratchetPeriod s1.cycleTime s1.factor) s1)

end Sys2Proof.Machine
end

