-- ==== Sys2Proof/Machine/ModeSet.lean ====
section
/-!
DEFINITION. The four variants of MODE_SET (R188, R189). The operand `mode_in` is the word's mode field (R91).
-/

namespace Sys2Proof.Machine

/-- MODE_SET.DIV (R188). -/
def execModeSetDiv (s : State) : Result := .next { s with mode := .div }

/-- MODE_SET.MULT (R188). -/
def execModeSetMult (s : State) : Result := .next { s with mode := .mult }

/-- MODE_SET.MAXMULT (R188): the chance indicator is forced on. -/
def execModeSetMaxmult (s : State) : Result := .next { s with mode := .maxMult, chanceInd := true }

/-- MODE_SET.IGN (R189): it writes nothing. -/
def execModeSetIgn (s : State) : Result := .next s

end Sys2Proof.Machine
end

