-- ==== Sys2Proof/Machine/Poll.lean ====
section
/-!
DEFINITION. POLL (R190) and NOP (R192).
-/

namespace Sys2Proof.Machine

/-- POLL (R190): it writes only `fdisp` and makes no draw. The mode field is a label; the register is read (R142). -/
def execPoll (_m : BitVec 2) (s : State) : Result := .next { s with fdisp := displayOf (fsPreview s) }

/-- NOP (R192): it writes nothing. -/
def execNop (s : State) : Result := .next s

end Sys2Proof.Machine
end

