-- ==== Sys2Proof/Machine/RstEdge.lean ====
section
/-!
DEFINITION. The three variants of RST_EDGE (R184 to R186): the common part, then what the variant the word names adds.
-/

namespace Sys2Proof.Machine

/-- RST_EDGE.DIV (R184, R185). -/
def execRstEdgeDiv (s : State) : Result := .next { timerStop (rstCommon s) with pcnt := 0, out := false }

/-- RST_EDGE.MULT (R184, R186): nothing after the common part. -/
def execRstEdgeMult (s : State) : Result := .next (rstCommon s)

/-- RST_EDGE.MAXMULT (R184, R186): nothing after the common part. -/
def execRstEdgeMaxmult (s : State) : Result := .next (rstCommon s)

end Sys2Proof.Machine
end

