-- ==== Sys2Proof/Machine/TmrTick.lean ====
section
/-!
DEFINITION. TMR_TICK (R183). Its mode field does not affect it.
-/

namespace Sys2Proof.Machine

/-- TMR_TICK (R183): count, toggle, then the stop test on the new count. -/
def execTmrTick (_m : BitVec 2) (s : State) : Result :=
  let p := pcntSucc s.pcnt
  .next { s with pcnt := p, out := !s.out, st := if pcntExceeds p s.factor then .idle else s.st }

end Sys2Proof.Machine
end

