-- ==== Sys2Proof/Machine/Dispatch.lean ====
section
/-!
DEFINITION. The meaning of every instruction, one arm per constructor of Instr.
-/

namespace Sys2Proof.Machine

def exec (i : Instr) (s : State) : Host.Outcome State Fault Refusal :=
  match i with
  | .nop => Sys2Proof.Machine.execNop s
  | .tmrTick m => Sys2Proof.Machine.execTmrTick m s
  | .rstEdgeDiv => Sys2Proof.Machine.execRstEdgeDiv s
  | .rstEdgeMult => Sys2Proof.Machine.execRstEdgeMult s
  | .rstEdgeMaxmult => Sys2Proof.Machine.execRstEdgeMaxmult s
  | .clkEdgeF0 m => Sys2Proof.Machine.execClkEdgeF0 m s
  | .clkEdgeF1 m => Sys2Proof.Machine.execClkEdgeF1 m s
  | .clkEdgeDiv => Sys2Proof.Machine.execClkEdgeDiv s
  | .clkEdgeMult => Sys2Proof.Machine.execClkEdgeMult s
  | .clkEdgeMaxmult => Sys2Proof.Machine.execClkEdgeMaxmult s
  | .modeSetDiv => Sys2Proof.Machine.execModeSetDiv s
  | .modeSetMult => Sys2Proof.Machine.execModeSetMult s
  | .modeSetMaxmult => Sys2Proof.Machine.execModeSetMaxmult s
  | .modeSetIgn => Sys2Proof.Machine.execModeSetIgn s
  | .poll m => Sys2Proof.Machine.execPoll m s

end Sys2Proof.Machine
end

