-- ==== Sys2Proof/Machine/Tick.lean ====
section
/-!
DEFINITION. The step rule (R170, R171): the request lines of a tick, the timer's countdown, the operation words in their
order, each decoded and performed, and the end of the tick; the hardware reset (R240); and where a step takes its input.
-/

namespace Sys2Proof.Machine

open Sys2Proof.Config

/-- The request lines of a tick (R88). -/
structure Requests where
  tmr : Bool
  rst : Bool
  clk : Bool
  modeSet : Bool
  poll : Bool
deriving DecidableEq, Repr

/-- The secondary timer fires in this tick (R88, R172). -/
def timerFires (s : State) : Bool := decide (s.st = .emit) && decide (s.tcnt ≤ 1)

/-- A rising edge: the level is 1 and was 0 in the previous tick (R87). -/
def risingEdge (level prev : Bool) : Bool := level && !prev

/-- The request lines, from the sampled ports and the state at the start of the step (R87, R88, R170). -/
def requests (s : State) : Requests :=
  { tmr := timerFires s, rst := risingEdge s.pins.resetIn s.prevRst, clk := risingEdge s.pins.clockIn s.prevClk,
    modeSet := s.pins.modeWe, poll := s.pins.pollReq }

/-- The operations of a tick in the order they are performed; NOP if nothing is requested (R88, R171). -/
def requestedOps (r : Requests) : List Op :=
  let ops := (if r.tmr then [Op.tmrTick] else []) ++ (if r.rst then [Op.rstEdge] else []) ++
    (if r.clk then [Op.clkEdge] else []) ++ (if r.modeSet then [Op.modeSet] else []) ++
    (if r.poll then [Op.poll] else [])
  if ops = [] then [Op.nop] else ops

/-- The timer's countdown at the start of a step (R170, R172). -/
def countTimer (s : State) : State :=
  match s.st with
  | .idle => s
  | .emit => { s with tcnt := if timerFires s then atLeastOne s.tper else s.tcnt - 1 }

/-- The mode field of an operation's word (R91). -/
def modeField (op : Op) (s : State) : BitVec 2 :=
  match op with
  | .nop => 0
  | .modeSet => s.pins.modeIn
  | .tmrTick | .rstEdge | .clkEdge | .poll => s.mode.bits

/-- The class field of an operation's word: for CLK_EDGE the class of the factor its common part selects (R92). -/
def classField (op : Op) (s : State) : BitVec 2 :=
  match op with
  | .clkEdge => (factorClass (clkCommon s).factor).bits
  | .nop | .tmrTick | .rstEdge | .modeSet | .poll => 0

/-- The word the dispatcher forms for an operation at the moment it starts (R89 to R92). -/
def formWord (op : Op) (s : State) : Byte := opw op.bits (modeField op s) (classField op s)

/-- Decodes an operation word and performs its instruction. -/
def performWord (w : Byte) (s : State) : Result :=
  match decode w with
  | .ok i => exec i s
  | .error e => .refused (.reservedWord e)

/-- Performs operations one after another (R171). -/
def performAll : List Op → State → Result
  | [], s => .next s
  | op :: rest, s => andThen (performWord (formWord op s) s) (performAll rest)

/-- The words a list of operations forms, in the order performed (R101). -/
def listWords : List Op → State → List Byte
  | [], _ => []
  | op :: rest, s =>
    formWord op s ::
      match performWord (formWord op s) s with
      | .next s' => listWords rest s'
      | .fault _ => []
      | .refused _ => []

/-- The end of a step (R170): the samples become the previous ones, `now` advances and wraps. -/
def endTick (s : State) : State :=
  { s with prevClk := s.pins.clockIn, prevRst := s.pins.resetIn, now := s.now + 1 }

/-- The ports sampled and the timer counted: the state the first operation of the tick sees (R170). -/
def startTick (stim : Stim) (s : State) : State := countTimer { s with pins := stim }

/-- The operations of a tick (R88, R171). -/
def tickOps (stim : Stim) (s : State) : List Op := requestedOps (requests { s with pins := stim })

/-- `Step(stim)` (R170). -/
def tick (stim : Stim) (s : State) : Result :=
  andThen (performAll (tickOps stim s) (startTick stim s)) fun s' => .next (endTick s')

/-- The operation words of a tick, in the order performed (R101). -/
def tickWords (stim : Stim) (s : State) : List Byte := listWords (tickOps stim s) (startTick stim s)

/-- The hardware reset (R240, R241, R243): every register at its reset value, the straps as presented at release. -/
def hardReset (straps : Straps) (s : State) : State := State.resetWith straps s.params s.inputs s.freeCount

/-- The input the next step takes: the first one given, or a free one. -/
def nextInput (s : State) : Input :=
  match s.inputs with
  | i :: _ => i
  | [] => freeInput s.freeCount

/-- The state with that input taken. -/
def takeInput (s : State) : State :=
  match s.inputs with
  | _ :: rest => { s with inputs := rest }
  | [] => { s with freeCount := s.freeCount + 1 }

/-- One step on the next input: a tick (R170) or a hardware reset (R240). -/
def stepOn (i : Input) (s : State) : Result :=
  match i with
  | .tick stim => tick stim s
  | .hardReset straps => .next (hardReset straps s)

end Sys2Proof.Machine
end

