-- ==== Sys2Proof/Machine/Fetch.lean ====
section
/-!
DEFINITION. The block fetches no instruction (R39): an operation is performed in a tick because the tick's inputs and
the state request it (R88). This file says which inputs and which state request exactly one given instruction.
-/

namespace Sys2Proof.Machine

open Sys2Proof.Config

/-- The mode register in which an instruction's word is formed, where the word depends on it (R91, R94). -/
def requiredMode (i : Instr) (s : State) : Mode :=
  match i with
  | .nop => s.mode
  | .tmrTick m => (Mode.ofBits? m).getD s.mode
  | .rstEdgeDiv => .div
  | .rstEdgeMult => .mult
  | .rstEdgeMaxmult => .maxMult
  | .clkEdgeF0 m => (Mode.ofBits? m).getD s.mode
  | .clkEdgeF1 m => (Mode.ofBits? m).getD s.mode
  | .clkEdgeDiv => .div
  | .clkEdgeMult => .mult
  | .clkEdgeMaxmult => .maxMult
  | .modeSetDiv => s.mode
  | .modeSetMult => s.mode
  | .modeSetMaxmult => s.mode
  | .modeSetIgn => s.mode
  | .poll m => (Mode.ofBits? m).getD s.mode

/-- A clock edge with both frequency channels at one reading. -/
def clkStim (r : Reading) : Stim := { Stim.quiet with clockIn := true, adc2 := r, adc3 := r }

/-- A MODE_SET request. -/
def modeStim (m : BitVec 2) : Stim := { Stim.quiet with modeWe := true, modeIn := m }

/-- The stimulus that requests an instruction's operation and nothing else. The readings 0, 180 and 1023 select the
factor classes F0, F1 and FN in both tables (R136). -/
def requestStim (i : Instr) : Stim :=
  match i with
  | .nop => Stim.quiet
  | .tmrTick _ => Stim.quiet
  | .rstEdgeDiv => { Stim.quiet with resetIn := true }
  | .rstEdgeMult => { Stim.quiet with resetIn := true }
  | .rstEdgeMaxmult => { Stim.quiet with resetIn := true }
  | .clkEdgeF0 _ => clkStim 0
  | .clkEdgeF1 _ => clkStim 180
  | .clkEdgeDiv => clkStim 1023
  | .clkEdgeMult => clkStim 1023
  | .clkEdgeMaxmult => clkStim 1023
  | .modeSetDiv => modeStim 0
  | .modeSetMult => modeStim 1
  | .modeSetMaxmult => modeStim 2
  | .modeSetIgn => modeStim 3
  | .poll _ => { Stim.quiet with pollReq := true }

/-- The timer in the state the instruction needs: due for TMR_TICK, otherwise not due in this tick (R172). -/
def requireTimer (i : Instr) (s : State) : State :=
  match i with
  | .tmrTick _ => { s with st := .emit, tcnt := 1 }
  | _ => if timerFires s then { s with st := .idle } else s

/-- The state, prepared so that the next step performs exactly this instruction. -/
def placeInstr (i : Instr) (s : State) : State :=
  let s1 := requireTimer i s
  { s1 with
    mode := requiredMode i s
    prevClk := s.prevClk && !(requestStim i).clockIn
    prevRst := s.prevRst && !(requestStim i).resetIn
    inputs := .tick (requestStim i) :: s.inputs }

/-- `placeInstr` for the instruction of an operation map word; a reserved word is never formed and places nothing. -/
def placeWord (s : State) (nbits w : Nat) : State :=
  match decodeTableWord nbits w with
  | some i => placeInstr i s
  | none => s

end Sys2Proof.Machine
end

