-- ==== Sys2Proof/Machine/Step.lean ====
section
/-!
DEFINITION. One step of the machine, on the next input the run gives or on a free one, and the placing of one
instruction for the next step.
-/

namespace Sys2Proof.Machine

/-- One step: the next input is taken and acted on (R170, R240). -/
def step (s : State) : Host.Outcome State Fault Refusal := stepOn (nextInput s) (takeInput s)

/-- The state in which the next step performs exactly the instruction of this word. -/
def State.withFetchWord (s : State) (nbits w : Nat) : State := placeWord s nbits w

end Sys2Proof.Machine
end

