-- ==== Sys2Proof/Machine/Trace.lean ====
section
/-!
DEFINITION. The trace language (R99, R100): programs of stimulus lines, the stimulus record each tick of a program has,
the ModeController's click rules that two of the lines expand with (R231), running a program from reset, and the listing
of the operation words a run performs (R101), with the decoding of a recorded listing (R95).
-/

namespace Sys2Proof.Machine.Trace

open Sys2Proof.Config

/-- A timed line of a trace program (R99) or a pseudo-operation (R100). -/
inductive Line where
  | adc (t : Nat) (a0 a1 a2 a3 : Reading)
  | clk (t : Nat)
  | rst (t : Nat)
  | mode (t : Nat) (m : BitVec 2)
  | poll (t : Nat)
  | pulse (t w : Nat)
  | rpulse (t w : Nat)
  | click1 (t : Nat)
  | click2 (t : Nat)
  | every (t p n : Nat)
deriving DecidableEq, Repr

/-- A trace program: the STRAP values (CT_INIT and RNG_SEED are the open parameters a program can set), the timed
lines, and the end of the RUN line (R99). -/
structure Program where
  straps : Straps
  ctInit : Word
  rngSeed : BitVec 16
  lines : List Line
  tEnd : Nat
deriving DecidableEq, Repr

/-- The program with every STRAP value at its default and no lines (R7, R99). -/
def Program.empty : Program :=
  { straps := Straps.default, ctInit := Params.default.ctInit.val, rngSeed := Params.default.rngSeed, lines := [],
    tEnd := 0 }

/-- The state of the ModeController: the mode it reads on `mode_sig` and the multiply mode last in use (R231). -/
structure Controller where
  mode : Mode
  lastMult : Mode
deriving DecidableEq, Repr

/-- The ModeController at startup (R231). -/
def Controller.boot (modeBoot : BitVec 2) : Controller :=
  match Mode.ofBoot modeBoot with
  | .div => { mode := .div, lastMult := .mult }
  | .mult => { mode := .mult, lastMult := .mult }
  | .maxMult => { mode := .maxMult, lastMult := .maxMult }

/-- The single click (R231): the mode it sets, and the controller after it. -/
def Controller.click1 (c : Controller) : Mode × Controller :=
  match c.mode with
  | .div => (c.lastMult, { c with mode := c.lastMult })
  | .mult => (.div, { mode := .div, lastMult := .mult })
  | .maxMult => (.div, { mode := .div, lastMult := .maxMult })

/-- The double click (R231): nothing while in DIV. -/
def Controller.click2 (c : Controller) : Option (Mode × Controller) :=
  match c.mode with
  | .div => none
  | .mult => some (.maxMult, { mode := .maxMult, lastMult := .maxMult })
  | .maxMult => some (.mult, { mode := .mult, lastMult := .mult })

/-- The line makes `clock_in` 1 at tick `u` (R99, R100). -/
def Line.clockHigh (u : Nat) : Line → Bool
  | .clk t => decide (u = t)
  | .pulse t w => decide (t ≤ u) && decide (u < t + w)
  | .every t p n => decide (t ≤ u) && decide ((u - t) % p = 0) && decide ((u - t) / p < n)
  | .adc .. | .rst _ | .mode .. | .poll _ | .rpulse .. | .click1 _ | .click2 _ => false

/-- The line makes `reset_in` 1 at tick `u` (R99, R100). -/
def Line.resetHigh (u : Nat) : Line → Bool
  | .rst t => decide (u = t)
  | .rpulse t w => decide (t ≤ u) && decide (u < t + w)
  | .adc .. | .clk _ | .mode .. | .poll _ | .pulse .. | .click1 _ | .click2 _ | .every .. => false

/-- The line requests POLL at tick `u` (R99). -/
def Line.pollAt (u : Nat) : Line → Bool
  | .poll t => decide (u = t)
  | .adc .. | .clk _ | .rst _ | .mode .. | .pulse .. | .rpulse .. | .click1 _ | .click2 _ | .every .. => false

/-- The `mode_in` the line requests at tick `u`, for the controller at that tick (R99, R100). -/
def Line.modeAt (c : Controller) (u : Nat) : Line → Option (BitVec 2)
  | .mode t m => if u = t then some m else none
  | .click1 t => if u = t then some c.click1.1.bits else none
  | .click2 t => if u = t then c.click2.map fun r => r.1.bits else none
  | .adc .. | .clk _ | .rst _ | .poll _ | .pulse .. | .rpulse .. | .every .. => none

/-- The `lastMult` the line leaves at tick `u`, if it is a click that sets it (R231). -/
def Line.lastMultAt (c : Controller) (u : Nat) : Line → Option Mode
  | .click1 t => if u = t then some c.click1.2.lastMult else none
  | .click2 t => if u = t then c.click2.map fun r => r.2.lastMult else none
  | .adc .. | .clk _ | .rst _ | .mode .. | .poll _ | .pulse .. | .rpulse .. | .every .. => none

/-- The tick from which an ADC line's readings hold, and the readings (R99). -/
def Line.readings : Line → Option (Nat × Reading × Reading × Reading × Reading)
  | .adc t a0 a1 a2 a3 => some (t, a0, a1, a2, a3)
  | .clk _ | .rst _ | .mode .. | .poll _ | .pulse .. | .rpulse .. | .click1 _ | .click2 _ | .every .. => none

/-- The readings in force at tick `u`: those of the latest ADC line up to `u`, all 0 before the first (R99). -/
def readingsAt (lines : List Line) (u : Nat) : Nat × Reading × Reading × Reading × Reading :=
  (lines.filterMap Line.readings).foldl
    (fun best r => if r.1 ≤ u ∧ best.1 ≤ r.1 then r else best) (0, 0, 0, 0, 0)

/-- Every `mode_in` requested at tick `u`. -/
def modeRequests (lines : List Line) (c : Controller) (u : Nat) : List (BitVec 2) := lines.filterMap (Line.modeAt c u)

/-- The controller after tick `u`: the mode is what `mode_sig` shows then (ONE is ignored, R189). -/
def Controller.after (lines : List Line) (u : Nat) (c : Controller) : Controller :=
  { mode := (((modeRequests lines c u).head?).bind Mode.ofBits?).getD c.mode
    lastMult := ((lines.filterMap (Line.lastMultAt c u)).head?).getD c.lastMult }

/-- The controller at the start of tick `u`. -/
def controllerAt (p : Program) : Nat → Controller
  | 0 => Controller.boot p.straps.modeBoot
  | u + 1 => (controllerAt p u).after p.lines u

/-- The stimulus record of tick `u` of a program (R99). -/
def stimAt (p : Program) (u : Nat) : Stim :=
  let r := readingsAt p.lines u
  let req := modeRequests p.lines (controllerAt p u) u
  { clockIn := p.lines.any (Line.clockHigh u), resetIn := p.lines.any (Line.resetHigh u),
    modeWe := decide (req ≠ []), modeIn := req.headD 0, pollReq := p.lines.any (Line.pollAt u),
    adc0 := r.2.1, adc1 := r.2.2.1, adc2 := r.2.2.2.1, adc3 := r.2.2.2.2 }

/-- All entries of a list are equal. -/
def allAgree {α : Type} [DecidableEq α] : List α → Bool
  | [] => true
  | a :: rest => rest.all fun b => decide (b = a)

/-- No two lines set the same field of tick `u` to different values (R99). The level and poll lines can only set 1. -/
def tickWellFormed (p : Program) (u : Nat) : Bool :=
  allAgree (modeRequests p.lines (controllerAt p u) u) &&
    allAgree ((p.lines.filterMap Line.readings).filter fun r => decide (r.1 = u))

/-- The tick a line names. -/
def Line.tick : Line → Nat
  | .adc t .. | .clk t | .rst t | .mode t _ | .poll t | .pulse t _ | .rpulse t _ | .click1 t | .click2 t
  | .every t .. => t

/-- An EVERY line's spacing is at least 2 ticks (R100). That a program with a closer one counts as ill-formed is log
entry 16 (DESIGN CHOICE). -/
def Line.spacingOk : Line → Bool
  | .every _ p _ => decide (2 ≤ p)
  | .adc .. | .clk _ | .rst _ | .mode .. | .poll _ | .pulse .. | .rpulse .. | .click1 _ | .click2 _ => true

/-- The program is well formed (R99, R100). Only a MODE, CLICK or ADC line can conflict, and it sets its field at the
tick it names, so the ticks the lines name are all the ticks there are to check, whether or not the run reaches them. -/
def Program.wellFormed (p : Program) : Bool :=
  p.lines.all Line.spacingOk && p.lines.all fun l => tickWellFormed p l.tick

/-- The start state of a run: the reset state, with the ticks of the program as its inputs (R99). DESIGN CHOICE (log entry
16): the tick numbers of a program count steps and have no bound, while `now` wraps (R21), so a run of 2^32 steps or more
ends with `now` at `t_end` modulo 2^32. -/
def startState (p : Program) (ct : CtInit) : State :=
  State.resetWith p.straps { Params.default with ctInit := ct, rngSeed := p.rngSeed }
    ((List.range p.tEnd).map fun u => .tick (stimAt p u)) 0

/-- `n` steps one after another. -/
def steps : Nat → State → Result
  | 0, s => .next s
  | n + 1, s => andThen (step s) (steps n)

/-- The start state of a program that has one: CT_INIT 0 and an ill-formed program are refused (R211, R99). -/
def start (p : Program) : Except Refusal State :=
  match CtInit.ofWord? p.ctInit with
  | none => .error .illegalParameter
  | some ct => if p.wellFormed then .ok (startState p ct) else .error .illFormedTrace

/-- Runs a program: the state with `now == t_end` (R99). -/
def run (p : Program) : Result :=
  match start p with
  | .ok s => steps p.tEnd s
  | .error e => .refused e

/-- The words performed by the next step, on an input the run gives; a hardware reset performs none. -/
def stepWords (s : State) : List Byte :=
  match nextInput s with
  | .tick stim => tickWords stim (takeInput s)
  | .hardReset _ => []

/-- The tick number, which is `now` (R11), and the word of every operation of the next `n` steps (R101). -/
def listingFrom : Nat → State → List (Word × Byte)
  | 0, _ => []
  | n + 1, s =>
    (stepWords s).map (fun w => (s.now, w)) ++
      match step s with
      | .next s' => listingFrom n s'
      | .fault _ => []
      | .refused _ => []

/-- A listing without its NOP lines (R101). -/
def omitNops (l : List (Word × Byte)) : List (Word × Byte) := l.filter fun r => decide (r.2 ≠ encode .nop)

/-- Every operation of a program's run, the NOP of each tick without a request among them (R101). -/
def fullListing (p : Program) : Except Refusal (List (Word × Byte)) :=
  match start p with
  | .ok s => .ok (listingFrom p.tEnd s)
  | .error e => .error e

/-- The listing of a program's run, NOP lines omitted (R101). A program that has no run has no listing. -/
def listing (p : Program) : Except Refusal (List (Word × Byte)) :=
  match fullListing p with
  | .ok l => .ok (omitNops l)
  | .error e => .error e

/-- Decodes a recorded listing; a reserved word refuses the trace at its place (R95). -/
def decodeListing : List (Word × Byte) → Except (Word × DecodeError) (List (Word × Instr))
  | [] => .ok []
  | (t, w) :: rest =>
    match decode w with
    | .error e => .error (t, e)
    | .ok i =>
      match decodeListing rest with
      | .error e => .error e
      | .ok r => .ok ((t, i) :: r)

/-- A hexadecimal digit. -/
def hexDigit (n : Nat) : Char := if n < 10 then Char.ofNat (48 + n) else Char.ofNat (55 + n)

/-- One line of a listing, `t: 0xWW MNEMONIC` (R101); the word alone where it is reserved. -/
def listingLine (t : Word) (w : Byte) : String :=
  let head := toString t.toNat ++ ": 0x" ++ String.ofList [hexDigit (w.toNat / 16), hexDigit (w.toNat % 16)]
  match decode w with
  | .ok i => head ++ " " ++ mnemonic i
  | .error _ => head

/-- The text of a listing, a line an operation (R101). -/
def listingText (l : List (Word × Byte)) : List String := l.map fun r => listingLine r.1 r.2

end Sys2Proof.Machine.Trace
end

