-- ==== Sys2Proof/Safety.lean ====
section
/-!
DEFINITION. The terms the statements use: the invariants of the block (R48), the states a run reaches, the instruction
the dispatcher picks for an operation (R90 to R92, R176, R184), repeated edges, and quiet ticks.
-/

namespace Sys2Proof.Machine

open Sys2Proof.Config

/-- What holds at the start of every step after reset (R48). Clauses (e) and (f) hold by the types of `mode` and
`fdisp`; clauses (g) and (h) are `emitting`. -/
structure State.Inv (s : State) : Prop where
  /-- R48 (a). -/
  cnt_le : s.cnt.toNat ≤ 4
  /-- R48 (b). -/
  sum_le : s.sum.toNat ≤ s.cnt.toNat * (2 ^ 32 - 1)
  /-- R48 (c). -/
  cycleTime_pos : 1 ≤ s.cycleTime.toNat
  /-- R48 (d). -/
  factor_legal : s.factor.toNat ∈ [0, 1, 2, 3, 4, 5, 6, 7, 8, 9, 16]
  /-- R48 (g), (h). -/
  emitting : s.st = .emit →
    1 ≤ s.tcnt.toNat ∧ 1 ≤ s.factor.toNat ∧ s.factor.toNat ≤ 5 ∧ s.pcnt.toNat ≤ 2 * s.factor.toNat
  /-- R48 (i). -/
  lfsr_nonzero : s.params.rngStep = .fibonacci → s.params.rngSeed ≠ 0 → s.lfsr ≠ 0

/-- A step that goes on: the only kind the block has (R170, R210). -/
def SafeStep (s : State) : Prop := ∃ t, step s = .next t

/-- The states a run can reach from reset, for any straps, parameters and inputs. -/
inductive Reachable : State → Prop where
  | reset (straps : Straps) (params : Params) (inputs : List Input) (n : Nat) :
      Reachable (State.resetWith straps params inputs n)
  | step (s t : State) : Reachable s → step s = .next t → Reachable t

/-- The instruction is a variant of CLK_EDGE. -/
def isClkEdge : Instr → Bool
  | .clkEdgeF0 _ | .clkEdgeF1 _ | .clkEdgeDiv | .clkEdgeMult | .clkEdgeMaxmult => true
  | .nop | .tmrTick _ | .rstEdgeDiv | .rstEdgeMult | .rstEdgeMaxmult | .modeSetDiv | .modeSetMult | .modeSetMaxmult
  | .modeSetIgn | .poll _ => false

/-- The instruction consults the probability gate (R162). -/
def consultsGate : Instr → Bool
  | .clkEdgeDiv | .clkEdgeMult => true
  | .clkEdgeF0 _ | .clkEdgeF1 _ | .clkEdgeMaxmult | .nop | .tmrTick _ | .rstEdgeDiv | .rstEdgeMult | .rstEdgeMaxmult
  | .modeSetDiv | .modeSetMult | .modeSetMaxmult | .modeSetIgn | .poll _ => false

/-- The variant of CLK_EDGE for a factor and a mode: the tests on the factor come first (R176). -/
def clkVariant (f : BitVec 5) (m : Mode) : Instr :=
  if f = 0 then .clkEdgeF0 m.bits
  else if f = 1 then .clkEdgeF1 m.bits
  else match m with
    | .div => .clkEdgeDiv
    | .mult => .clkEdgeMult
    | .maxMult => .clkEdgeMaxmult

/-- The variant of RST_EDGE for a mode (R184). -/
def rstVariant : Mode → Instr
  | .div => .rstEdgeDiv
  | .mult => .rstEdgeMult
  | .maxMult => .rstEdgeMaxmult

/-- The variant of MODE_SET for the value on `mode_in` (R188, R189). -/
def modeSetVariant (b : BitVec 2) : Instr :=
  match Mode.ofBits? b with
  | some .div => .modeSetDiv
  | some .mult => .modeSetMult
  | some .maxMult => .modeSetMaxmult
  | none => .modeSetIgn

/-- The instruction an operation is performed as, in the state it starts in (R90 to R92). -/
def dispatched (op : Op) (s : State) : Instr :=
  match op with
  | .nop => .nop
  | .tmrTick => .tmrTick s.mode.bits
  | .rstEdge => rstVariant s.mode
  | .clkEdge => clkVariant (fsSelect s).1 s.mode
  | .modeSet => modeSetVariant s.pins.modeIn
  | .poll => .poll s.mode.bits

/-- A word is reserved (R95). -/
def reservedWord (w : Byte) : Prop :=
  let op := w.extractLsb' 5 3
  let m := w.extractLsb' 3 2
  let fc := w.extractLsb' 1 2
  op = 6 ∨ op = 7 ∨ w.getLsbD 0 = true ∨ fc = 3 ∨ (fc ≠ 0 ∧ op ≠ 3) ∨
    (m = 3 ∧ (op = 1 ∨ op = 2 ∨ op = 3 ∨ op = 5)) ∨ (op = 0 ∧ m ≠ 0)

/-- One instruction performed `n` times, as at `n` clock edges between which nothing else touches what it reads. -/
def execTimes (i : Instr) : Nat → State → Result
  | 0, s => .next s
  | n + 1, s => andThen (execTimes i n s) (exec i)

/-- In a tick with this stimulus no CLK_EDGE and no RST_EDGE.DIV is performed (R87, R193): neither input rises, or only
`reset_in` does and the mode is not DIV. A level held high is no edge. -/
def leavesEmission (stim : Stim) (s : State) : Bool :=
  !risingEdge stim.clockIn s.prevClk && !(risingEdge stim.resetIn s.prevRst && decide (s.mode = .div))

/-- The next `n` steps are ticks in which no CLK_EDGE and no RST_EDGE.DIV is performed (R193). -/
def undisturbed : Nat → State → Bool
  | 0, _ => true
  | n + 1, s =>
    (match nextInput s with
      | .tick stim => leavesEmission stim s
      | .hardReset _ => false) &&
    match step s with
    | .next t => undisturbed n t
    | .fault _ => false
    | .refused _ => false

/-- A tick of R194's setting: no reset edge, no mode but DIV requested, and if `clock_in` rises, the factor selected is
`f` and the gate is true. -/
def dividerTick (f : Nat) (stim : Stim) (s : State) : Bool :=
  let sampled := { s with pins := stim }
  !risingEdge stim.resetIn s.prevRst && (!stim.modeWe || decide (stim.modeIn = 0 ∨ stim.modeIn = 3)) &&
    (!risingEdge stim.clockIn s.prevClk || decide ((fsSelect sampled).1.toNat = f) && pgResult sampled)

/-- How many clock edges the next `n` steps have, if all of them are ticks of R194's setting. -/
def dividerEdges (f : Nat) : Nat → State → Option Nat
  | 0, _ => some 0
  | n + 1, s =>
    match nextInput s with
    | .hardReset _ => none
    | .tick stim =>
      match step s with
      | .next t =>
        if dividerTick f stim s then
          (dividerEdges f n t).map fun e => e + (risingEdge stim.clockIn s.prevClk).toNat
        else none
      | .fault _ => none
      | .refused _ => none

/-- The estimator fed with several edges, one after another. -/
def feedEdges : List Word → State → State
  | [], s => s
  | t :: ts, s => feedEdges ts (peOnEdge t s)

/-- The state with other chance readings on its ports. -/
def withChance (a b : Reading) (s : State) : State := { s with pins := { s.pins with adc0 := a, adc1 := b } }

end Sys2Proof.Machine
end

