-- ==== Sys2Proof/Certificates/Slice0/Obligations.lean ====
section
/-!
DEFINITION. The statements for the provers, one for each part of the spec: encoding, the step rule, the timer, the
estimator, the selector, the generator and the gate, every operation with its frame, reset, and the rules over the whole
block. A next state written as the old one with some fields replaced says at once what the operation writes and that it
writes nothing else.
-/

open Sys2Proof Sys2Proof.Machine Sys2Proof.Config

/-! ## Encoding -/

/-- R94: the operation map, row by row: the words each row's pattern stands for, as the decoder reads them and as the
encoder writes them, and that with the mode field expanded there are 23 of them. -/
def Obligations.OperationMap : Prop :=
  (∀ w : Byte,
    (decode w = .ok .nop ↔ w = 0b00000000) ∧
    (decode w = .ok .rstEdgeDiv ↔ w = 0b01000000) ∧ (decode w = .ok .rstEdgeMult ↔ w = 0b01001000) ∧
    (decode w = .ok .rstEdgeMaxmult ↔ w = 0b01010000) ∧ (decode w = .ok .clkEdgeDiv ↔ w = 0b01100100) ∧
    (decode w = .ok .clkEdgeMult ↔ w = 0b01101100) ∧ (decode w = .ok .clkEdgeMaxmult ↔ w = 0b01110100) ∧
    (decode w = .ok .modeSetDiv ↔ w = 0b10000000) ∧ (decode w = .ok .modeSetMult ↔ w = 0b10001000) ∧
    (decode w = .ok .modeSetMaxmult ↔ w = 0b10010000) ∧ (decode w = .ok .modeSetIgn ↔ w = 0b10011000)) ∧
  (∀ (w : Byte) (m : BitVec 2),
    (decode w = .ok (.tmrTick m) ↔ w &&& 0xE7 = 0x20 ∧ w.extractLsb' 3 2 = m ∧ m ≠ 3) ∧
    (decode w = .ok (.clkEdgeF0 m) ↔ w &&& 0xE7 = 0x60 ∧ w.extractLsb' 3 2 = m ∧ m ≠ 3) ∧
    (decode w = .ok (.clkEdgeF1 m) ↔ w &&& 0xE7 = 0x62 ∧ w.extractLsb' 3 2 = m ∧ m ≠ 3) ∧
    (decode w = .ok (.poll m) ↔ w &&& 0xE7 = 0xA0 ∧ w.extractLsb' 3 2 = m ∧ m ≠ 3)) ∧
  (encode .nop = 0b00000000 ∧
    encode .rstEdgeDiv = 0b01000000 ∧ encode .rstEdgeMult = 0b01001000 ∧ encode .rstEdgeMaxmult = 0b01010000 ∧
    encode .clkEdgeDiv = 0b01100100 ∧ encode .clkEdgeMult = 0b01101100 ∧ encode .clkEdgeMaxmult = 0b01110100 ∧
    encode .modeSetDiv = 0b10000000 ∧ encode .modeSetMult = 0b10001000 ∧ encode .modeSetMaxmult = 0b10010000 ∧
    encode .modeSetIgn = 0b10011000) ∧
  (∀ m : BitVec 2,
    encode (.tmrTick m) = 0b001#3 ++ m ++ 0b000#3 ∧ encode (.clkEdgeF0 m) = 0b011#3 ++ m ++ 0b000#3 ∧
    encode (.clkEdgeF1 m) = 0b011#3 ++ m ++ 0b010#3 ∧ encode (.poll m) = 0b101#3 ++ m ++ 0b000#3) ∧
  ((List.range 256).filter fun n => (decodeTableWord 8 n).isSome).length = 23

/-- Some words written out from the patterns of R94 decode to the instructions they stand for. -/
def Obligations.WrittenWordsDecode : Prop :=
  decode 0x00 = .ok .nop ∧ decode 0x28 = .ok (.tmrTick 1) ∧ decode 0x40 = .ok .rstEdgeDiv ∧
  decode 0x68 = .ok (.clkEdgeF0 1) ∧ decode 0x62 = .ok (.clkEdgeF1 0) ∧ decode 0x6C = .ok .clkEdgeMult ∧
  decode 0x90 = .ok .modeSetMaxmult ∧ decode 0x98 = .ok .modeSetIgn ∧ decode 0xB0 = .ok (.poll 2)

/-- Decoding an encoded well-formed instruction gives it back, for all instructions and mode fields (R94). -/
def Obligations.DecodeOfEncodeIsIdentity : Prop :=
  ∀ i : Instr, i.wellFormed = true → decode (encode i) = .ok i

/-- Every word that decodes is the word of a well-formed instruction: no two words mean one instruction (R94). -/
def Obligations.EncodeOfDecodeIsIdentity : Prop :=
  ∀ (w : Byte) (i : Instr), decode w = .ok i → i.wellFormed = true ∧ encode i = w

/-- R95: the decoder refuses exactly the reserved words, the dispatcher forms none of them, and a recorded trace is
refused exactly if it holds one. -/
def Obligations.ReservedWordsAreRefused : Prop :=
  (∀ w : Byte, (∃ e, decode w = .error e) ↔ reservedWord w) ∧
  (∀ (op : Op) (s : State), ¬ reservedWord (formWord op s)) ∧
  ∀ l : List (Word × Byte), (∃ e, Trace.decodeListing l = .error e) ↔ ∃ r, r ∈ l ∧ reservedWord r.2

/-- R86: the 46 bits of a stimulus record, each field at its place, every value a legal record. -/
def Obligations.StimulusRecordLayout : Prop :=
  (∀ w : BitVec 46, packStim (unpackStim w) = w) ∧
  ∀ x : Stim, unpackStim (packStim x) = x ∧
    (packStim x).getLsbD 0 = x.clockIn ∧ (packStim x).getLsbD 1 = x.resetIn ∧ (packStim x).getLsbD 2 = x.modeWe ∧
    (packStim x).extractLsb' 3 2 = x.modeIn ∧ (packStim x).getLsbD 5 = x.pollReq ∧
    (packStim x).extractLsb' 6 10 = x.adc0 ∧ (packStim x).extractLsb' 16 10 = x.adc1 ∧
    (packStim x).extractLsb' 26 10 = x.adc2 ∧ (packStim x).extractLsb' 36 10 = x.adc3

/-! ## The step -/

/-- In a tick with one requested operation, the step performs exactly the instruction its word decodes to, between the
start of the tick and its end; with several, each is performed on the state the one before it left. -/
def Obligations.StepRunsTheDecodedInstruction : Prop :=
  (∀ (s : State) (stim : Stim) (op : Op) (i : Instr),
    nextInput s = .tick stim → tickOps stim (takeInput s) = [op] →
    decode (formWord op (startTick stim (takeInput s))) = .ok i →
    step s = andThen (exec i (startTick stim (takeInput s))) fun t => .next (endTick t)) ∧
  ∀ (op : Op) (rest : List Op) (s : State) (i : Instr), decode (formWord op s) = .ok i →
    performAll (op :: rest) s = andThen (exec i s) (performAll rest)

/-- R90 to R92 with R176 and R184: the word the dispatcher forms always decodes, to the well-formed instruction that the
operation, the mode and the selected factor call for. -/
def Obligations.DispatcherFormsTheCalledForWord : Prop :=
  ∀ (op : Op) (s : State), decode (formWord op s) = .ok (dispatched op s) ∧ (dispatched op s).wellFormed = true ∧
    formWord op s = encode (dispatched op s)

/-- R170: one step, as the pseudocode of the step rule has it, and that it is total. -/
def Obligations.StepFollowsTheStepRule : Prop :=
  ∀ (s : State) (stim : Stim), nextInput s = .tick stim →
    let clkEdge := stim.clockIn = true ∧ s.prevClk = false
    let rstEdge := stim.resetIn = true ∧ s.prevRst = false
    let fire := s.st = .emit ∧ s.tcnt.toNat ≤ 1
    let s0 := { takeInput s with pins := stim }
    let s1 := if s.st = .emit then
        { s0 with tcnt := if fire then BitVec.ofNat 32 (max 1 s.tper.toNat) else s.tcnt - 1 } else s0
    (step s =
      andThen (if fire then performWord (formWord .tmrTick s1) s1 else .next s1) fun s2 =>
      andThen (if rstEdge then performWord (formWord .rstEdge s2) s2 else .next s2) fun s3 =>
      andThen (if clkEdge then performWord (formWord .clkEdge s3) s3 else .next s3) fun s4 =>
      andThen (if stim.modeWe = true then performWord (formWord .modeSet s4) s4 else .next s4) fun s5 =>
      andThen (if stim.pollReq = true then performWord (formWord .poll s5) s5 else .next s5) fun s6 =>
      andThen (if ¬fire ∧ ¬rstEdge ∧ ¬clkEdge ∧ stim.modeWe = false ∧ stim.pollReq = false then
          performWord (formWord .nop s6) s6 else .next s6) fun s7 =>
      .next { s7 with prevClk := stim.clockIn, prevRst := stim.resetIn, now := s.now + 1 }) ∧
    ∃ t, step s = .next t

/-- The block never stops: every step of every state, on every input, answers a next state (R170, R210). -/
def Obligations.EveryStepGoesOn : Prop := ∀ s : State, ∃ t, step s = .next t

/-- R192: NOP writes nothing, and a tick with no request makes only the step rule's own writes. -/
def Obligations.IdleTickMakesOnlyTheStepsOwnWrites : Prop :=
  encode .nop = 0b00000000 ∧ (∀ s : State, exec .nop s = .next s) ∧
  ∀ (s : State) (stim : Stim), nextInput s = .tick stim →
    requests { takeInput s with pins := stim } =
      { tmr := false, rst := false, clk := false, modeSet := false, poll := false } →
    step s = .next { takeInput s with
      pins := stim, tcnt := if s.st = .emit then s.tcnt - 1 else s.tcnt,
      prevClk := stim.clockIn, prevRst := stim.resetIn, now := s.now + 1 }

/-- R21, R22: after every tick the samples are the previous ones and `now` is one more, modulo 2^32. -/
def Obligations.EveryTickSamplesAndCounts : Prop :=
  ∀ (s : State) (stim : Stim), nextInput s = .tick stim →
    ∃ t, step s = .next t ∧ t.prevClk = stim.clockIn ∧ t.prevRst = stim.resetIn ∧
      t.now.toNat = (s.now.toNat + 1) % 2 ^ 32

/-- Only a rising edge of `clock_in` selects a factor or feeds the estimator (R5, R87): in a tick without one, the
estimate, the factor, the gate decision and the generator keep their values, whatever else is requested. -/
def Obligations.WithoutAClockEdgeNothingIsSelected : Prop :=
  ∀ (s : State) (stim : Stim), nextInput s = .tick stim → (stim.clockIn = false ∨ s.prevClk = true) →
    ∃ t, step s = .next t ∧ t.cycleTime = s.cycleTime ∧ t.lastTs = s.lastTs ∧ t.factor = s.factor ∧
      t.gate = s.gate ∧ t.lfsr = s.lfsr ∧ t.tper = s.tper

/-- Placing an instruction for the next step makes that step perform exactly its word. -/
def Obligations.PlacedInstructionIsTheNextStep : Prop :=
  ∀ (i : Instr) (s : State), i.wellFormed = true →
    ∃ stim, nextInput (s.withFetchWord 8 (encode i).toNat) = .tick stim ∧
      tickWords stim (takeInput (s.withFetchWord 8 (encode i).toNat)) = [encode i]

/-! ## The operations, each with its frame -/

/-- R183: TMR_TICK counts, toggles, and stops the timer when the new count exceeds twice the factor; its mode field does
not affect it, and nothing else is written. -/
def Obligations.TmrTickCountsTogglesAndStops : Prop :=
  ∀ (m : BitVec 2) (s : State),
    encode (.tmrTick m) = 0b001#3 ++ m ++ 0b000#3 ∧
    exec (.tmrTick m) s = .next { s with
      pcnt := BitVec.ofNat 8 (min (s.pcnt.toNat + 1) 255),
      out := !s.out,
      st := if 2 * s.factor.toNat < min (s.pcnt.toNat + 1) 255 then .idle else s.st }

/-- R184, R185: a reset edge in DIV mode stops the timer, clears the count, forces the output LOW, and restarts the
averaging window if the strap says so; nothing else is written. -/
def Obligations.ResetEdgeInDivClearsTheCount : Prop :=
  ∀ s : State,
    encode .rstEdgeDiv = 0b01000000 ∧
    exec .rstEdgeDiv s = .next { s with
      sum := if s.straps.rstRestartsAvg = true then 0 else s.sum,
      cnt := if s.straps.rstRestartsAvg = true then 0 else s.cnt,
      st := .idle, pcnt := 0, out := false }

/-- R184, R186: a reset edge in MULT or MAX_MULT mode writes nothing but, if the strap says so, the averaging window. -/
def Obligations.ResetEdgeOutsideDivTouchesOnlyTheWindow : Prop :=
  encode .rstEdgeMult = 0b01001000 ∧ encode .rstEdgeMaxmult = 0b01010000 ∧
  ∀ (i : Instr) (s : State), i = .rstEdgeMult ∨ i = .rstEdgeMaxmult →
    exec i s = .next { s with
      sum := if s.straps.rstRestartsAvg = true then 0 else s.sum,
      cnt := if s.straps.rstRestartsAvg = true then 0 else s.cnt }

/-- R188, R189: MODE_SET writes the mode, forces the chance indicator on for MAX_MULT, ignores ONE, and writes nothing
else. -/
def Obligations.ModeSetWritesModeAndIndicator : Prop :=
  encode .modeSetDiv = 0b10000000 ∧ encode .modeSetMult = 0b10001000 ∧ encode .modeSetMaxmult = 0b10010000 ∧
  encode .modeSetIgn = 0b10011000 ∧
  ∀ s : State,
    exec .modeSetDiv s = .next { s with mode := .div } ∧
    exec .modeSetMult s = .next { s with mode := .mult } ∧
    exec .modeSetMaxmult s = .next { s with mode := .maxMult, chanceInd := true } ∧
    exec .modeSetIgn s = .next s

/-- R190 with R142: POLL writes only the display, with the class of the factor the two frequency readings stand for in
the mode; no draw is made. In MAX_MULT mode the class is FN whenever the two table values differ. -/
def Obligations.PollShowsThePreviewedClass : Prop :=
  ∀ (m : BitVec 2) (s : State),
    let shown (f : BitVec 5) : Display := if f = 0 then .suppressed else if f = 1 then .one else .normal
    let r := max s.pins.adc2.toNat s.pins.adc3.toNat
    let fa := lutRead multTable (fsIndex s.pins.adc2.toNat 6)
    let fb := lutRead multTable (fsIndex s.pins.adc3.toNat 6)
    encode (.poll m) = 0b101#3 ++ m ++ 0b000#3 ∧
    exec (.poll m) s = .next { s with fdisp :=
      match s.mode with
      | .mult => shown (lutRead multTable (fsIndex r 6))
      | .div => shown (lutRead divTable (fsIndex r 11))
      | .maxMult => if fa = fb then shown fa else .normal }

/-- R176, R177: CLK_EDGE.F0 stops the timer, feeds the estimator, writes the selected factor, forces the output LOW and
shows SUPPRESSED; the count, the gate decision, the indicator and the timer's period are kept and no gate draw is made.
`EstimatorTakesTheDelta` and the statements on the selector say what the two sub-operations compute. -/
def Obligations.ClkEdgeF0SuppressesTheCycle : Prop :=
  ∀ (m : BitVec 2) (s : State),
    encode (.clkEdgeF0 m) = 0b011#3 ++ m ++ 0b000#3 ∧
    exec (.clkEdgeF0 m) s = .next { s with
      st := .idle, lastTs := s.now, sum := (peOnEdge s.now s).sum, cnt := (peOnEdge s.now s).cnt,
      cycleTime := (peOnEdge s.now s).cycleTime, factor := (fsSelect s).1, lfsr := (fsSelect s).2,
      out := false, fdisp := .suppressed }

/-- R176, R178: CLK_EDGE.F1 clears the count, starts the timer with half the new estimate (a period of 0 counted as 1),
sets the output HIGH and shows ONE, in every mode and without a gate decision. -/
def Obligations.ClkEdgeF1PassesThrough : Prop :=
  ∀ (m : BitVec 2) (s : State),
    let ct := (peOnEdge s.now s).cycleTime
    encode (.clkEdgeF1 m) = 0b011#3 ++ m ++ 0b010#3 ∧
    exec (.clkEdgeF1 m) s = .next { s with
      lastTs := s.now, sum := (peOnEdge s.now s).sum, cnt := (peOnEdge s.now s).cnt, cycleTime := ct,
      factor := (fsSelect s).1, lfsr := (fsSelect s).2, pcnt := 0,
      tper := BitVec.ofNat 32 (ct.toNat / 2), tcnt := BitVec.ofNat 32 (max 1 (ct.toNat / 2)), st := .emit,
      out := true, fdisp := .one }

/-- R176, R179: CLK_EDGE.DIV counts the edge, draws the gate, and pulses exactly when the gate is true and the count has
reached the factor; only then is the count cleared. The timer stays stopped. -/
def Obligations.ClkEdgeDivCountsEdges : Prop :=
  ∀ s : State,
    let d := rngRange s.params 7 0 99 (fsSelect s).2
    let g := decide (d.1 < chanceMap s.params.chanceMap (max s.pins.adc0.toNat s.pins.adc1.toNat))
    let p := min (s.pcnt.toNat + 1) 255
    let hit := g && decide ((fsSelect s).1.toNat ≤ p)
    encode .clkEdgeDiv = 0b01100100 ∧
    exec .clkEdgeDiv s = .next { s with
      st := .idle, lastTs := s.now, sum := (peOnEdge s.now s).sum, cnt := (peOnEdge s.now s).cnt,
      cycleTime := (peOnEdge s.now s).cycleTime, factor := (fsSelect s).1, lfsr := d.2, fdisp := .normal,
      gate := g, chanceInd := g, pcnt := if hit then 0 else BitVec.ofNat 8 p, out := hit }

/-- R176, R180: CLK_EDGE.MULT clears the count, sets the output HIGH, draws the gate, and starts the timer with the
ratchet period if the gate is true and with half the estimate if not. The block forms this word for a factor above 1
only; for factors 0 and 1 it forms the words of CLK_EDGE.F0 and CLK_EDGE.F1. -/
def Obligations.ClkEdgeMultStartsTheRatchet : Prop :=
  ∀ s : State, 1 < (fsSelect s).1.toNat →
    let ct := (peOnEdge s.now s).cycleTime
    let d := rngRange s.params 7 0 99 (fsSelect s).2
    let g := decide (d.1 < chanceMap s.params.chanceMap (max s.pins.adc0.toNat s.pins.adc1.toNat))
    let period := if g then ct.toNat / (2 * (fsSelect s).1.toNat) else ct.toNat / 2
    encode .clkEdgeMult = 0b01101100 ∧
    exec .clkEdgeMult s = .next { s with
      lastTs := s.now, sum := (peOnEdge s.now s).sum, cnt := (peOnEdge s.now s).cnt, cycleTime := ct,
      factor := (fsSelect s).1, lfsr := d.2, fdisp := .normal, pcnt := 0, out := true, gate := g, chanceInd := g,
      tper := BitVec.ofNat 32 period, tcnt := BitVec.ofNat 32 (max 1 period), st := .emit }

/-- R176, R181: CLK_EDGE.MAXMULT is CLK_EDGE.MULT without the gate: always the ratchet period, no gate draw, the gate
decision and the chance indicator kept. As there, the word is formed for a factor above 1 only. -/
def Obligations.ClkEdgeMaxmultSkipsTheGate : Prop :=
  ∀ s : State, 1 < (fsSelect s).1.toNat →
    let ct := (peOnEdge s.now s).cycleTime
    let period := ct.toNat / (2 * (fsSelect s).1.toNat)
    encode .clkEdgeMaxmult = 0b01110100 ∧
    exec .clkEdgeMaxmult s = .next { s with
      lastTs := s.now, sum := (peOnEdge s.now s).sum, cnt := (peOnEdge s.now s).cnt, cycleTime := ct,
      factor := (fsSelect s).1, lfsr := (fsSelect s).2, fdisp := .normal, pcnt := 0, out := true,
      tper := BitVec.ofNat 32 period, tcnt := BitVec.ofNat 32 (max 1 period), st := .emit }

/-- R176: a clock edge performs the variant that the selected factor and the mode call for, the tests on the factor first;
whichever it is, the estimator has been fed with the tick number, the selected factor is written, the timer runs
afterwards only where the variant starts it, and where no gate is consulted the selector's draws are the only ones. -/
def Obligations.ClkEdgeCommonPartAndVariant : Prop :=
  ∀ s : State,
    let f := (fsSelect s).1
    let i : Instr :=
      if f.toNat = 0 then .clkEdgeF0 s.mode.bits
      else if f.toNat = 1 then .clkEdgeF1 s.mode.bits
      else if s.mode = .div then .clkEdgeDiv
      else if s.mode = .mult then .clkEdgeMult
      else .clkEdgeMaxmult
    (formWord .clkEdge s).extractLsb' 5 3 = 0b011 ∧ performWord (formWord .clkEdge s) s = exec i s ∧
    ∃ t, exec i s = .next t ∧ t.factor = f ∧ t.lastTs = s.now ∧ t.sum = (peOnEdge s.now s).sum ∧
      t.cnt = (peOnEdge s.now s).cnt ∧ t.cycleTime = (peOnEdge s.now s).cycleTime ∧
      t.st = (if f.toNat = 0 ∨ (f.toNat ≠ 1 ∧ s.mode = .div) then .idle else .emit) ∧
      (consultsGate i = false → t.lfsr = (fsSelect s).2)

/-- R175: the state machine. The value of `ST` after each operation. -/
def Obligations.SchedulerStateTransitions : Prop :=
  ∀ (i : Instr) (s : State), ∃ t, exec i s = .next t ∧
    t.st = match i with
      | .clkEdgeF0 _ | .clkEdgeDiv | .rstEdgeDiv => .idle
      | .clkEdgeF1 _ | .clkEdgeMult | .clkEdgeMaxmult => .emit
      | .tmrTick _ => if 2 * s.factor.toNat < t.pcnt.toNat then .idle else s.st
      | .rstEdgeMult | .rstEdgeMaxmult | .modeSetDiv | .modeSetMult | .modeSetMaxmult | .modeSetIgn | .poll _
      | .nop => s.st

/-! ## The period estimator -/

/-- R121, R122: what a clock edge does to the estimator, in every variant: the delta is taken modulo 2^32 and added
exactly; the fifth writes the floor of a fifth of the sum, at least 1, and empties the window; the others leave the
estimate alone. -/
def Obligations.EstimatorTakesTheDelta : Prop :=
  ∀ (i : Instr) (s : State), isClkEdge i = true → s.Inv →
    let delta := (s.now.toNat + 2 ^ 32 - s.lastTs.toNat) % 2 ^ 32
    ∃ t, exec i s = .next t ∧ t.lastTs = s.now ∧
      (s.cnt.toNat = 4 → t.cnt = 0 ∧ t.sum = 0 ∧ t.cycleTime.toNat = max 1 ((s.sum.toNat + delta) / 5)) ∧
      (s.cnt.toNat ≠ 4 → t.cnt.toNat = s.cnt.toNat + 1 ∧ t.sum.toNat = s.sum.toNat + delta ∧
        t.cycleTime = s.cycleTime)

/-- R120, R125: the average is over consecutive windows of five deltas: from an empty window the first four edges leave
the estimate alone and the fifth writes the mean of the five deltas, whatever they are. -/
def Obligations.WindowOfFiveIsAveraged : Prop :=
  ∀ (s : State) (t1 t2 t3 t4 t5 : Word), s.cnt = 0 → s.sum = 0 →
    let deltas := (t1 - s.lastTs).toNat + (t2 - t1).toNat + (t3 - t2).toNat + (t4 - t3).toNat + (t5 - t4).toNat
    (feedEdges [t1] s).cycleTime = s.cycleTime ∧ (feedEdges [t1, t2] s).cycleTime = s.cycleTime ∧
    (feedEdges [t1, t2, t3] s).cycleTime = s.cycleTime ∧ (feedEdges [t1, t2, t3, t4] s).cycleTime = s.cycleTime ∧
    (feedEdges [t1, t2, t3, t4, t5] s).cycleTime.toNat = max 1 (deltas / 5) ∧
    (feedEdges [t1, t2, t3, t4, t5] s).cnt = 0 ∧ (feedEdges [t1, t2, t3, t4, t5] s).sum = 0 ∧
    (feedEdges [t1, t2, t3, t4, t5] s).lastTs = t5

/-! ## The factor selector -/

/-- R136: the readings that give each factor, in both tables. -/
def Obligations.ReadingThresholdsOfTheTables : Prop :=
  (∀ r : Nat, r < 1024 → (multValue r).toNat =
    if r < 171 then 0 else if r < 342 then 1 else if r < 512 then 2 else if r < 683 then 3 else if r < 854 then 4 else 5) ∧
  ∀ r : Nat, r < 1024 → (divValue r).toNat =
    if r < 94 then 0 else if r < 187 then 1 else if r < 280 then 2 else if r < 373 then 3 else if r < 466 then 4
    else if r < 559 then 5 else if r < 652 then 6 else if r < 745 then 7 else if r < 838 then 8 else if r < 931 then 9
    else 16

/-- R137, R138: in MULT and DIV modes every variant of CLK_EDGE writes the table value at the index of the larger
frequency reading, and the variants that do not consult the gate leave the generator alone. -/
def Obligations.MultAndDivFactorFromTheLargerReading : Prop :=
  ∀ (i : Instr) (s : State), isClkEdge i = true →
    let r := max s.pins.adc2.toNat s.pins.adc3.toNat
    ∃ t, exec i s = .next t ∧
      (s.mode = .mult → t.factor = lutRead multTable (min 5 (r * 6 / 1024))) ∧
      (s.mode = .div → t.factor = lutRead divTable (min 10 (r * 11 / 1024))) ∧
      (s.mode ≠ .maxMult → (fsSelect s).2 = s.lfsr ∧ (consultsGate i = false → t.lfsr = s.lfsr))

/-- R140: in MAX_MULT mode the factor is a bounded 4-bit draw between the two table values; with the default range method
it is the lower bound plus a 4-bit draw modulo the span, and exactly four generator steps are made by the selector. -/
def Obligations.MaxMultFactorIsDrawn : Prop :=
  ∀ s : State, s.mode = .maxMult →
    let fa := (lutRead multTable (fsIndex s.pins.adc2.toNat 6)).toNat
    let fb := (lutRead multTable (fsIndex s.pins.adc3.toNat 6)).toNat
    ((fsSelect s).1.toNat, (fsSelect s).2) = rngRange s.params 4 (min fa fb) (max fa fb) s.lfsr ∧
    (s.params.rangeMethod = .modulo →
      (fsSelect s).1.toNat = min fa fb + (rngBits s.params.rngStep 4 s.lfsr).1 % (max fa fb - min fa fb + 1) ∧
      (fsSelect s).2 = (rngBits s.params.rngStep 4 s.lfsr).2)

/-- R141: in MAX_MULT mode every variant of CLK_EDGE writes a factor between the two table values, at most 5, whatever
the generator and the range method are. -/
def Obligations.MaxMultFactorStaysInBounds : Prop :=
  ∀ (i : Instr) (s : State), isClkEdge i = true → s.mode = .maxMult →
    let fa := (lutRead multTable (fsIndex s.pins.adc2.toNat 6)).toNat
    let fb := (lutRead multTable (fsIndex s.pins.adc3.toNat 6)).toNat
    ∃ t, exec i s = .next t ∧ min fa fb ≤ t.factor.toNat ∧ t.factor.toNat ≤ max fa fb ∧ max fa fb ≤ 5

/-- R142: in MULT and DIV modes the class POLL shows is the class of the factor a clock edge in that state would select;
in MAX_MULT mode a shown F0 or F1 is. -/
def Obligations.PreviewAgreesWithTheEdge : Prop :=
  ∀ s : State,
    (s.mode ≠ .maxMult → fsPreview s = factorClass (fsSelect s).1) ∧
    (s.mode = .maxMult → fsPreview s ≠ .fn → fsPreview s = factorClass (fsSelect s).1)

/-! ## The generator and the gate -/

/-- R151: one step of the default generator, bit by bit. -/
def Obligations.DefaultGeneratorStep : Prop :=
  ∀ l : BitVec 16,
    (rngStep .fibonacci l).1 = l.getLsbD 0 ∧
    (rngStep .fibonacci l).2.getLsbD 15 = (l.getLsbD 0 ^^ l.getLsbD 2 ^^ l.getLsbD 3 ^^ l.getLsbD 5) ∧
    ∀ k, k < 15 → (rngStep .fibonacci l).2.getLsbD k = l.getLsbD (k + 1)

/-- R152 (b), (c): the default step is a bijection on the 16-bit values, and 0 is the state that maps to itself. -/
def Obligations.DefaultGeneratorIsABijection : Prop :=
  (∀ a b : BitVec 16, (rngStep .fibonacci a).2 = (rngStep .fibonacci b).2 → a = b) ∧
  (∀ b : BitVec 16, ∃ a, (rngStep .fibonacci a).2 = b) ∧
  rngStep .fibonacci 0 = (false, 0)

/-- R153: a draw of `n` bits is below 2^n and is assembled most significant bit first, one generator step a bit. -/
def Obligations.DrawIsMostSignificantBitFirst : Prop :=
  ∀ (sel : RngStepSel) (n : Nat) (l : BitVec 16),
    (rngBits sel n l).1 < 2 ^ n ∧ rngBits sel 0 l = (0, l) ∧
    (rngBits sel (n + 1) l).1 = 2 ^ n * (rngStep sel l).1.toNat + (rngBits sel n (rngStep sel l).2).1 ∧
    (rngBits sel (n + 1) l).2 = (rngBits sel n (rngStep sel l).2).2

/-- R157 (a): every bounded draw is within its bounds, whatever the generator, the seed and the range method are. -/
def Obligations.BoundedDrawStaysInBounds : Prop :=
  ∀ (p : Params) (n lo hi : Nat) (l : BitVec 16), lo ≤ hi →
    lo ≤ (rngRange p n lo hi l).1 ∧ (rngRange p n lo hi l).1 ≤ hi

/-- R155: the default range method takes the draw modulo the span, with exactly `n` generator steps whatever the bounds
are, and with the two draw shapes of the block every value of the range comes from some draw. -/
def Obligations.ModuloDraw : Prop :=
  (∀ (p : Params) (n lo hi : Nat) (l : BitVec 16), p.rangeMethod = .modulo → lo ≤ hi →
    rngRange p n lo hi l = (lo + (rngBits p.rngStep n l).1 % (hi - lo + 1), (rngBits p.rngStep n l).2)) ∧
  (∀ lo hi x : Nat, lo ≤ x → x ≤ hi → hi ≤ 5 → ∃ v, v < 2 ^ 4 ∧ lo + v % (hi - lo + 1) = x) ∧
  ∀ x : Nat, x ≤ 99 → ∃ v, v < 2 ^ 7 ∧ v % 100 = x

/-- R156: the rejecting method answers the first draw that is below the span, with the generator where that draw left
it (for a draw that comes within as many tries as the generator has states; a later first one cannot come). -/
def Obligations.RejectingDrawTakesTheFirstBelowTheSpan : Prop :=
  ∀ (p : Params) (n lo hi k : Nat) (l : BitVec 16), p.rangeMethod = .reject → lo ≤ hi → k < 65536 →
    (∀ j, j < k → hi - lo + 1 ≤ (rngBits p.rngStep n (lfsrAfterDraws p.rngStep n j l)).1) →
    (rngBits p.rngStep n (lfsrAfterDraws p.rngStep n k l)).1 < hi - lo + 1 →
    rngRange p n lo hi l =
      (lo + (rngBits p.rngStep n (lfsrAfterDraws p.rngStep n k l)).1, lfsrAfterDraws p.rngStep n (k + 1) l)

/-- R158: every chance map a hardware may have is non-decreasing, stays in [0, 100] and maps 0 to 0 and 1023 to 100; the
default one is the scaling by 101. -/
def Obligations.ChanceMapIsMonotoneFrom0To100 : Prop :=
  (∀ (sel : ChanceMapSel) (a b : Nat), a ≤ b → b < 1024 → chanceMap sel a ≤ chanceMap sel b ∧ chanceMap sel b ≤ 100) ∧
  (∀ sel : ChanceMapSel, chanceMap sel 0 = 0 ∧ chanceMap sel 1023 = 100) ∧
  ∀ r : Nat, chanceMap .scaled r = min 100 (r * 101 / 1024)

/-- R161 (a), (b): with the default chance map, both chance readings at most 10 make every gate decision false, and
either at least 1014 makes it true, whatever the generator is; the indicator shows the decision. -/
def Obligations.GateAtTheEndsOfTheChanceRange : Prop :=
  ∀ (i : Instr) (s : State), consultsGate i = true → s.params.chanceMap = .scaled →
    ∃ t, exec i s = .next t ∧ t.chanceInd = t.gate ∧
      (s.pins.adc0.toNat ≤ 10 ∧ s.pins.adc1.toNat ≤ 10 → t.gate = false) ∧
      (1014 ≤ s.pins.adc0.toNat ∨ 1014 ≤ s.pins.adc1.toNat → t.gate = true)

/-- R258 (b), R70: with the default range method a tick advances the generator by four steps if a clock edge is
performed in MAX_MULT mode, by seven if one is performed in DIV or MULT mode with a factor above 1, and not at all
otherwise; POLL, TMR_TICK, RST_EDGE and MODE_SET of the same tick never draw. -/
def Obligations.GeneratorStepsPerTick : Prop :=
  ∀ (s : State) (stim : Stim), nextInput s = .tick stim → s.params.rangeMethod = .modulo →
    let sampled := { takeInput s with pins := stim }
    let drawn := if stim.clockIn = true ∧ s.prevClk = false then
        match s.mode with
        | .maxMult => 4
        | .mult | .div => if 1 < (fsSelect sampled).1.toNat then 7 else 0
      else 0
    ∃ t, step s = .next t ∧ t.lfsr = (rngBits s.params.rngStep drawn s.lfsr).2

/-- R162: the chance readings matter only to the two variants that consult the gate: for every other instruction, other
readings on the two chance channels leave the next state as it is, but for those ports. -/
def Obligations.ChanceReadingsMatterOnlyToTheGate : Prop :=
  ∀ (i : Instr) (s : State) (a b : Reading), consultsGate i = false →
    ∃ t, exec i s = .next t ∧ exec i (withChance a b s) = .next (withChance a b t)

/-! ## Reset, ports and the environment -/

/-- R49, R241: the registers after a hardware reset, for all straps and parameters. -/
def Obligations.HardwareResetValues : Prop :=
  ∀ (s : State) (straps : Straps), nextInput s = .hardReset straps →
    ∃ t, step s = .next t ∧ t.now = 0 ∧ t.prevClk = true ∧ t.prevRst = true ∧ t.lastTs = 0 ∧ t.sum = 0 ∧ t.cnt = 0 ∧
      t.cycleTime = s.params.ctInit.val ∧ t.factor = 1 ∧ t.gate = false ∧ t.pcnt = 0 ∧ t.st = .idle ∧ t.tper = 0 ∧
      t.tcnt = 0 ∧ t.out = false ∧ t.lfsr = s.params.rngSeed ∧ t.fdisp = .normal ∧
      t.mode = (if straps.modeBoot = 0 then .div else if straps.modeBoot = 2 then .maxMult else .mult) ∧
      t.chanceInd = decide (straps.modeBoot = 2) ∧ t.straps = straps ∧ t.params = s.params

/-- The state right after reset holds the reset values with the default straps and parameters (R49, R7, R41, R42, R99).
That the default parameters are the ones taken is the model's choice (log entry 2). -/
def Obligations.ResetStateHoldsTheDefaults : Prop :=
  State.reset.now = 0 ∧ State.reset.prevClk = true ∧ State.reset.prevRst = true ∧ State.reset.lastTs = 0 ∧
  State.reset.sum = 0 ∧ State.reset.cnt = 0 ∧ State.reset.cycleTime = 500000 ∧ State.reset.factor = 1 ∧
  State.reset.gate = false ∧ State.reset.pcnt = 0 ∧ State.reset.st = .idle ∧ State.reset.tper = 0 ∧
  State.reset.tcnt = 0 ∧ State.reset.out = false ∧ State.reset.lfsr = 0xACE1 ∧ State.reset.chanceInd = false ∧
  State.reset.fdisp = .normal ∧ State.reset.mode = .mult ∧ State.reset.straps.gateActiveHigh = true ∧
  State.reset.straps.rstRestartsAvg = false ∧ State.reset.straps.modeBoot = 1 ∧
  State.reset.params.ctInit.val = 500000 ∧ State.reset.params.rngSeed = 0xACE1 ∧
  State.reset.params.rngStep = .fibonacci ∧ State.reset.params.rangeMethod = .modulo ∧
  State.reset.params.chanceMap = .scaled ∧ State.reset.straps = Straps.default ∧
  State.reset.params = Params.default

/-- R45: the output ports are functions of the state: the polarity strap inverts the output, the other four show their
registers' codes (R36, R37, R30). -/
def Obligations.OutputPorts : Prop :=
  ∀ s : State,
    gateOut s = (if s.straps.gateActiveHigh = true then s.out else !s.out) ∧
    chanceLed s = s.chanceInd ∧
    fdispOut s = (match s.fdisp with | .normal => 0 | .one => 1 | .suppressed => 2) ∧
    modeSig s = (match s.mode with | .div => 0 | .mult => 1 | .maxMult => 2) ∧
    emitting s = (match s.st with | .idle => 0 | .emit => 1)

/-- The pulses and the spaced edges of a trace program stand for the single-tick CLK and RST lines R100 expands them
to. -/
def Obligations.PulseLinesExpandToSingleTicks : Prop :=
  (∀ t w u : Nat, Trace.Line.clockHigh u (.pulse t w) =
    ((List.range w).map fun k => Trace.Line.clk (t + k)).any (Trace.Line.clockHigh u)) ∧
  (∀ t w u : Nat, Trace.Line.resetHigh u (.rpulse t w) =
    ((List.range w).map fun k => Trace.Line.rst (t + k)).any (Trace.Line.resetHigh u)) ∧
  ∀ t p n u : Nat, 2 ≤ p → Trace.Line.clockHigh u (.every t p n) =
    ((List.range n).map fun k => Trace.Line.clk (t + k * p)).any (Trace.Line.clockHigh u)

/-- R231: the ModeController's clicks: a single click toggles DIV and the last multiply mode, a double click toggles MULT
and MAX_MULT and does nothing in DIV; two single clicks come back to the mode they started from outside DIV. -/
def Obligations.ClickRules : Prop :=
  ∀ c : Trace.Controller,
    (c.mode = .div → c.click1 = (c.lastMult, { mode := c.lastMult, lastMult := c.lastMult }) ∧ c.click2 = none) ∧
    (c.mode ≠ .div → c.click1 = (.div, { mode := .div, lastMult := c.mode }) ∧
      (c.click1.2.click1).1 = c.mode) ∧
    (c.mode = .mult → c.click2 = some (.maxMult, { mode := .maxMult, lastMult := .maxMult })) ∧
    (c.mode = .maxMult → c.click2 = some (.mult, { mode := .mult, lastMult := .mult }))

/-! ## The whole block -/

/-- R48 holds right after reset, for all straps, parameters and inputs. -/
def Obligations.InvariantsHoldAfterReset : Prop :=
  ∀ (straps : Straps) (params : Params) (inputs : List Input) (n : Nat),
    (State.resetWith straps params inputs n).Inv

/-- R48: every step keeps the invariants, from every state that has them. -/
def Obligations.EveryStepKeepsTheInvariants : Prop :=
  ∀ s t : State, s.Inv → step s = .next t → t.Inv

/-- R37: the mode changes only by MODE_SET or a hardware reset; a tick with no request, or with ONE on `mode_in`, keeps
it. -/
def Obligations.OnlyModeSetChangesTheMode : Prop :=
  ∀ (s : State) (stim : Stim), nextInput s = .tick stim →
    ∃ t, step s = .next t ∧ t.mode =
      (if stim.modeWe = true ∧ stim.modeIn = 0 then .div
       else if stim.modeWe = true ∧ stim.modeIn = 1 then .mult
       else if stim.modeWe = true ∧ stim.modeIn = 2 then .maxMult
       else s.mode)

/-- R41, R42: the straps and the parameters are constants of a run: no tick changes them. -/
def Obligations.NoTickChangesStrapsOrParameters : Prop :=
  ∀ (s : State) (stim : Stim), nextInput s = .tick stim →
    ∃ t, step s = .next t ∧ t.straps = s.straps ∧ t.params = s.params

/-- R215: a clock edge has the final word on the output, the count and the timer, whatever timer tick or reset edge is
performed in the same tick. -/
def Obligations.ClockEdgeHasTheFinalWord : Prop :=
  ∀ (s : State) (stim : Stim), nextInput s = .tick stim → stim.clockIn = true → s.prevClk = false →
    let f := (fsSelect { takeInput s with pins := stim }).1
    ∃ t, step s = .next t ∧ t.factor = f ∧
      (f.toNat = 0 → t.out = false ∧ t.st = .idle) ∧
      (f.toNat = 1 → t.out = true ∧ t.pcnt = 0 ∧ t.st = .emit) ∧
      (1 < f.toNat → s.mode ≠ .div → t.out = true ∧ t.pcnt = 0 ∧ t.st = .emit) ∧
      (1 < f.toNat → s.mode = .div → t.st = .idle)

/-- R215: a reset edge and a clock edge in one tick in DIV mode with a factor above 1: the count is cleared, then the edge
counts as 1, and the output is LOW, whatever the timer does in that tick. -/
def Obligations.ResetThenClockEdgeCountsAsOne : Prop :=
  ∀ (s : State) (stim : Stim), nextInput s = .tick stim → stim.clockIn = true → s.prevClk = false →
    stim.resetIn = true → s.prevRst = false → s.mode = .div →
    1 < (fsSelect { takeInput s with pins := stim }).1.toNat →
    ∃ t, step s = .next t ∧ t.out = false ∧ t.pcnt = 1 ∧ t.st = .idle

/-- R191: with no clock edge an idle scheduler stays idle and the output holds its level, unless a reset edge in DIV mode
forces it LOW. -/
def Obligations.NoClockLeavesTheOutputHeld : Prop :=
  ∀ (s : State) (stim : Stim), nextInput s = .tick stim → s.st = .idle → (stim.clockIn = false ∨ s.prevClk = true) →
    ∃ t, step s = .next t ∧ t.st = .idle ∧
      t.out = (if stim.resetIn = true ∧ s.prevRst = false ∧ s.mode = .div then false else s.out)

/-- R76 (c): an emission in progress is altered neither by a mode change, nor by the analog inputs, nor by a POLL: two
ticks from one state in which no CLK_EDGE and no RST_EDGE.DIV is performed leave the same scheduler, whatever else they
bring, levels held high and reset edges outside DIV mode among it. -/
def Obligations.EmissionIgnoresModeReadingsAndPoll : Prop :=
  ∀ (s : State) (x y : Stim), leavesEmission x s = true → leavesEmission y s = true →
    ∃ t u, step { s with inputs := [.tick x] } = .next t ∧ step { s with inputs := [.tick y] } = .next u ∧
      t.st = u.st ∧ t.tper = u.tper ∧ t.tcnt = u.tcnt ∧ t.pcnt = u.pcnt ∧ t.out = u.out ∧ t.factor = u.factor ∧
      t.cycleTime = u.cycleTime ∧ t.lfsr = u.lfsr

/-- R193: the timeline of an emission. From a state as a starting CLK_EDGE leaves it (running, count 0, output HIGH,
`tcnt` a full period P' = max(1, tper)), over ticks in which no CLK_EDGE and no RST_EDGE.DIV is performed, the k-th timer
tick comes k × P' ticks later for k = 1 to 2f + 1: the count is then k, the output HIGH exactly for even k, and the timer
stops with the (2f + 1)-th. The clock may stay high after the starting edge, and reset edges outside DIV mode may come. -/
def Obligations.EmissionTimeline : Prop :=
  ∀ (s : State) (k : Nat), s.st = .emit → s.pcnt = 0 → s.out = true →
    s.tcnt.toNat = max 1 s.tper.toNat → 1 ≤ s.factor.toNat →
    1 ≤ k → k ≤ 2 * s.factor.toNat + 1 →
    undisturbed (k * max 1 s.tper.toNat) s = true →
    ∃ t, Host.Core.run Sys2Proof.core (k * max 1 s.tper.toNat) s = .next t ∧
      t.pcnt.toNat = k ∧ t.out = decide (k % 2 = 0) ∧
      t.st = (if k = 2 * s.factor.toNat + 1 then .idle else .emit) ∧
      t.tcnt.toNat = max 1 s.tper.toNat

/-- R194, on the operation alone: CLK_EDGE.DIV performed n times one after another on the same sampled ports and the same
`now`, in DIV mode with a factor f above 1, chance level 100 and the count 0 before the first: the count is then n mod f,
and the output is HIGH exactly if f divides n. `DividerSequenceOverTicks` says it of steps. -/
def Obligations.DividerSequence : Prop :=
  ∀ (s : State) (n : Nat), s.mode = .div → s.pcnt = 0 → 1 < (fsSelect s).1.toNat → 100 ≤ chanceLevel s → 1 ≤ n →
    ∃ t, execTimes .clkEdgeDiv n s = .next t ∧ t.pcnt.toNat = n % (fsSelect s).1.toNat ∧
      (t.out = true ↔ (fsSelect s).1.toNat ∣ n)

/-- R194 over ticks: from an idle state in DIV mode with count 0, over n steps that are ticks with no reset edge, no mode
but DIV requested, and at every clock edge the factor f above 1 and the gate true, after e clock edges the count is e mod f
and, if there was an edge, the output is HIGH exactly if f divides e. The ticks between the edges, the levels, the readings
in them and the POLLs are free. -/
def Obligations.DividerSequenceOverTicks : Prop :=
  ∀ (s : State) (f n e : Nat), s.mode = .div → s.st = .idle → s.pcnt = 0 → 1 < f → dividerEdges f n s = some e →
    ∃ t, Host.Core.run Sys2Proof.core n s = .next t ∧ t.mode = .div ∧ t.st = .idle ∧ t.pcnt.toNat = e % f ∧
      (1 ≤ e → (t.out = true ↔ f ∣ e))

/-! ## The trace language -/

/-- A program is well formed exactly if its EVERY lines are spaced by at least 2 ticks and no two of its lines conflict: at
no tick whatever, run or not, do two of them request different modes or set different readings (R99). That a closer EVERY
line makes a program ill-formed is the model's choice (log entry 16), and so is its reading of the mode the environment
holds when a click is expanded, `controllerAt` (log entry 17). -/
def Obligations.WellFormedProgramsHaveNoConflict : Prop :=
  ∀ p : Trace.Program, p.wellFormed = true ↔
    (∀ t d n, Trace.Line.every t d n ∈ p.lines → 2 ≤ d) ∧
    ∀ u : Nat,
      (∀ a b, a ∈ Trace.modeRequests p.lines (Trace.controllerAt p u) u →
        b ∈ Trace.modeRequests p.lines (Trace.controllerAt p u) u → a = b) ∧
      ∀ a0 a1 a2 a3 b0 b1 b2 b3, Trace.Line.adc u a0 a1 a2 a3 ∈ p.lines → Trace.Line.adc u b0 b1 b2 b3 ∈ p.lines →
        a0 = b0 ∧ a1 = b1 ∧ a2 = b2 ∧ a3 = b3
end

