-- ==== Sys2Proof/Laws/State.lean ====
section
/-!
SUPPORT. One lemma per field and per update of the state: what each named update leaves in each field.
-/

namespace Sys2Proof.Machine

open Sys2Proof.Config

@[simp] theorem timerStop_now (s : State) : (timerStop s).now = s.now := rfl
@[simp] theorem timerStop_prevClk (s : State) : (timerStop s).prevClk = s.prevClk := rfl
@[simp] theorem timerStop_prevRst (s : State) : (timerStop s).prevRst = s.prevRst := rfl
@[simp] theorem timerStop_lastTs (s : State) : (timerStop s).lastTs = s.lastTs := rfl
@[simp] theorem timerStop_sum (s : State) : (timerStop s).sum = s.sum := rfl
@[simp] theorem timerStop_cnt (s : State) : (timerStop s).cnt = s.cnt := rfl
@[simp] theorem timerStop_cycleTime (s : State) : (timerStop s).cycleTime = s.cycleTime := rfl
@[simp] theorem timerStop_factor (s : State) : (timerStop s).factor = s.factor := rfl
@[simp] theorem timerStop_gate (s : State) : (timerStop s).gate = s.gate := rfl
@[simp] theorem timerStop_pcnt (s : State) : (timerStop s).pcnt = s.pcnt := rfl
@[simp] theorem timerStop_st (s : State) : (timerStop s).st = .idle := rfl
@[simp] theorem timerStop_tper (s : State) : (timerStop s).tper = s.tper := rfl
@[simp] theorem timerStop_tcnt (s : State) : (timerStop s).tcnt = s.tcnt := rfl
@[simp] theorem timerStop_out (s : State) : (timerStop s).out = s.out := rfl
@[simp] theorem timerStop_lfsr (s : State) : (timerStop s).lfsr = s.lfsr := rfl
@[simp] theorem timerStop_chanceInd (s : State) : (timerStop s).chanceInd = s.chanceInd := rfl
@[simp] theorem timerStop_fdisp (s : State) : (timerStop s).fdisp = s.fdisp := rfl
@[simp] theorem timerStop_mode (s : State) : (timerStop s).mode = s.mode := rfl
@[simp] theorem timerStop_straps (s : State) : (timerStop s).straps = s.straps := rfl
@[simp] theorem timerStop_params (s : State) : (timerStop s).params = s.params := rfl
@[simp] theorem timerStop_pins (s : State) : (timerStop s).pins = s.pins := rfl
@[simp] theorem timerStop_inputs (s : State) : (timerStop s).inputs = s.inputs := rfl
@[simp] theorem timerStop_freeCount (s : State) : (timerStop s).freeCount = s.freeCount := rfl

@[simp] theorem timerStart_now (p : Word) (s : State) : (timerStart p s).now = s.now := rfl
@[simp] theorem timerStart_prevClk (p : Word) (s : State) : (timerStart p s).prevClk = s.prevClk := rfl
@[simp] theorem timerStart_prevRst (p : Word) (s : State) : (timerStart p s).prevRst = s.prevRst := rfl
@[simp] theorem timerStart_lastTs (p : Word) (s : State) : (timerStart p s).lastTs = s.lastTs := rfl
@[simp] theorem timerStart_sum (p : Word) (s : State) : (timerStart p s).sum = s.sum := rfl
@[simp] theorem timerStart_cnt (p : Word) (s : State) : (timerStart p s).cnt = s.cnt := rfl
@[simp] theorem timerStart_cycleTime (p : Word) (s : State) : (timerStart p s).cycleTime = s.cycleTime := rfl
@[simp] theorem timerStart_factor (p : Word) (s : State) : (timerStart p s).factor = s.factor := rfl
@[simp] theorem timerStart_gate (p : Word) (s : State) : (timerStart p s).gate = s.gate := rfl
@[simp] theorem timerStart_pcnt (p : Word) (s : State) : (timerStart p s).pcnt = s.pcnt := rfl
@[simp] theorem timerStart_st (p : Word) (s : State) : (timerStart p s).st = .emit := rfl
@[simp] theorem timerStart_tper (p : Word) (s : State) : (timerStart p s).tper = p := rfl
@[simp] theorem timerStart_tcnt (p : Word) (s : State) : (timerStart p s).tcnt = atLeastOne p := rfl
@[simp] theorem timerStart_out (p : Word) (s : State) : (timerStart p s).out = s.out := rfl
@[simp] theorem timerStart_lfsr (p : Word) (s : State) : (timerStart p s).lfsr = s.lfsr := rfl
@[simp] theorem timerStart_chanceInd (p : Word) (s : State) : (timerStart p s).chanceInd = s.chanceInd := rfl
@[simp] theorem timerStart_fdisp (p : Word) (s : State) : (timerStart p s).fdisp = s.fdisp := rfl
@[simp] theorem timerStart_mode (p : Word) (s : State) : (timerStart p s).mode = s.mode := rfl
@[simp] theorem timerStart_straps (p : Word) (s : State) : (timerStart p s).straps = s.straps := rfl
@[simp] theorem timerStart_params (p : Word) (s : State) : (timerStart p s).params = s.params := rfl
@[simp] theorem timerStart_pins (p : Word) (s : State) : (timerStart p s).pins = s.pins := rfl
@[simp] theorem timerStart_inputs (p : Word) (s : State) : (timerStart p s).inputs = s.inputs := rfl
@[simp] theorem timerStart_freeCount (p : Word) (s : State) : (timerStart p s).freeCount = s.freeCount := rfl

@[simp] theorem peRestart_now (s : State) : (peRestart s).now = s.now := rfl
@[simp] theorem peRestart_prevClk (s : State) : (peRestart s).prevClk = s.prevClk := rfl
@[simp] theorem peRestart_prevRst (s : State) : (peRestart s).prevRst = s.prevRst := rfl
@[simp] theorem peRestart_lastTs (s : State) : (peRestart s).lastTs = s.lastTs := rfl
@[simp] theorem peRestart_sum (s : State) : (peRestart s).sum = 0 := rfl
@[simp] theorem peRestart_cnt (s : State) : (peRestart s).cnt = 0 := rfl
@[simp] theorem peRestart_cycleTime (s : State) : (peRestart s).cycleTime = s.cycleTime := rfl
@[simp] theorem peRestart_factor (s : State) : (peRestart s).factor = s.factor := rfl
@[simp] theorem peRestart_gate (s : State) : (peRestart s).gate = s.gate := rfl
@[simp] theorem peRestart_pcnt (s : State) : (peRestart s).pcnt = s.pcnt := rfl
@[simp] theorem peRestart_st (s : State) : (peRestart s).st = s.st := rfl
@[simp] theorem peRestart_tper (s : State) : (peRestart s).tper = s.tper := rfl
@[simp] theorem peRestart_tcnt (s : State) : (peRestart s).tcnt = s.tcnt := rfl
@[simp] theorem peRestart_out (s : State) : (peRestart s).out = s.out := rfl
@[simp] theorem peRestart_lfsr (s : State) : (peRestart s).lfsr = s.lfsr := rfl
@[simp] theorem peRestart_chanceInd (s : State) : (peRestart s).chanceInd = s.chanceInd := rfl
@[simp] theorem peRestart_fdisp (s : State) : (peRestart s).fdisp = s.fdisp := rfl
@[simp] theorem peRestart_mode (s : State) : (peRestart s).mode = s.mode := rfl
@[simp] theorem peRestart_straps (s : State) : (peRestart s).straps = s.straps := rfl
@[simp] theorem peRestart_params (s : State) : (peRestart s).params = s.params := rfl
@[simp] theorem peRestart_pins (s : State) : (peRestart s).pins = s.pins := rfl
@[simp] theorem peRestart_inputs (s : State) : (peRestart s).inputs = s.inputs := rfl
@[simp] theorem peRestart_freeCount (s : State) : (peRestart s).freeCount = s.freeCount := rfl

@[simp] theorem peOnEdge_now (t : Word) (s : State) : (peOnEdge t s).now = s.now := by unfold peOnEdge; dsimp only; split <;> rfl
@[simp] theorem peOnEdge_prevClk (t : Word) (s : State) : (peOnEdge t s).prevClk = s.prevClk := by unfold peOnEdge; dsimp only; split <;> rfl
@[simp] theorem peOnEdge_prevRst (t : Word) (s : State) : (peOnEdge t s).prevRst = s.prevRst := by unfold peOnEdge; dsimp only; split <;> rfl
@[simp] theorem peOnEdge_lastTs (t : Word) (s : State) : (peOnEdge t s).lastTs = t := by unfold peOnEdge; dsimp only; split <;> rfl
@[simp] theorem peOnEdge_factor (t : Word) (s : State) : (peOnEdge t s).factor = s.factor := by unfold peOnEdge; dsimp only; split <;> rfl
@[simp] theorem peOnEdge_gate (t : Word) (s : State) : (peOnEdge t s).gate = s.gate := by unfold peOnEdge; dsimp only; split <;> rfl
@[simp] theorem peOnEdge_pcnt (t : Word) (s : State) : (peOnEdge t s).pcnt = s.pcnt := by unfold peOnEdge; dsimp only; split <;> rfl
@[simp] theorem peOnEdge_st (t : Word) (s : State) : (peOnEdge t s).st = s.st := by unfold peOnEdge; dsimp only; split <;> rfl
@[simp] theorem peOnEdge_tper (t : Word) (s : State) : (peOnEdge t s).tper = s.tper := by unfold peOnEdge; dsimp only; split <;> rfl
@[simp] theorem peOnEdge_tcnt (t : Word) (s : State) : (peOnEdge t s).tcnt = s.tcnt := by unfold peOnEdge; dsimp only; split <;> rfl
@[simp] theorem peOnEdge_out (t : Word) (s : State) : (peOnEdge t s).out = s.out := by unfold peOnEdge; dsimp only; split <;> rfl
@[simp] theorem peOnEdge_lfsr (t : Word) (s : State) : (peOnEdge t s).lfsr = s.lfsr := by unfold peOnEdge; dsimp only; split <;> rfl
@[simp] theorem peOnEdge_chanceInd (t : Word) (s : State) : (peOnEdge t s).chanceInd = s.chanceInd := by unfold peOnEdge; dsimp only; split <;> rfl
@[simp] theorem peOnEdge_fdisp (t : Word) (s : State) : (peOnEdge t s).fdisp = s.fdisp := by unfold peOnEdge; dsimp only; split <;> rfl
@[simp] theorem peOnEdge_mode (t : Word) (s : State) : (peOnEdge t s).mode = s.mode := by unfold peOnEdge; dsimp only; split <;> rfl
@[simp] theorem peOnEdge_straps (t : Word) (s : State) : (peOnEdge t s).straps = s.straps := by unfold peOnEdge; dsimp only; split <;> rfl
@[simp] theorem peOnEdge_params (t : Word) (s : State) : (peOnEdge t s).params = s.params := by unfold peOnEdge; dsimp only; split <;> rfl
@[simp] theorem peOnEdge_pins (t : Word) (s : State) : (peOnEdge t s).pins = s.pins := by unfold peOnEdge; dsimp only; split <;> rfl
@[simp] theorem peOnEdge_inputs (t : Word) (s : State) : (peOnEdge t s).inputs = s.inputs := by unfold peOnEdge; dsimp only; split <;> rfl
@[simp] theorem peOnEdge_freeCount (t : Word) (s : State) : (peOnEdge t s).freeCount = s.freeCount := by unfold peOnEdge; dsimp only; split <;> rfl

@[simp] theorem rstCommon_now (s : State) : (rstCommon s).now = s.now := by unfold rstCommon; split <;> rfl
@[simp] theorem rstCommon_prevClk (s : State) : (rstCommon s).prevClk = s.prevClk := by unfold rstCommon; split <;> rfl
@[simp] theorem rstCommon_prevRst (s : State) : (rstCommon s).prevRst = s.prevRst := by unfold rstCommon; split <;> rfl
@[simp] theorem rstCommon_lastTs (s : State) : (rstCommon s).lastTs = s.lastTs := by unfold rstCommon; split <;> rfl
@[simp] theorem rstCommon_sum (s : State) : (rstCommon s).sum = if s.straps.rstRestartsAvg then 0 else s.sum := by unfold rstCommon; split <;> rfl
@[simp] theorem rstCommon_cnt (s : State) : (rstCommon s).cnt = if s.straps.rstRestartsAvg then 0 else s.cnt := by unfold rstCommon; split <;> rfl
@[simp] theorem rstCommon_cycleTime (s : State) : (rstCommon s).cycleTime = s.cycleTime := by unfold rstCommon; split <;> rfl
@[simp] theorem rstCommon_factor (s : State) : (rstCommon s).factor = s.factor := by unfold rstCommon; split <;> rfl
@[simp] theorem rstCommon_gate (s : State) : (rstCommon s).gate = s.gate := by unfold rstCommon; split <;> rfl
@[simp] theorem rstCommon_pcnt (s : State) : (rstCommon s).pcnt = s.pcnt := by unfold rstCommon; split <;> rfl
@[simp] theorem rstCommon_st (s : State) : (rstCommon s).st = s.st := by unfold rstCommon; split <;> rfl
@[simp] theorem rstCommon_tper (s : State) : (rstCommon s).tper = s.tper := by unfold rstCommon; split <;> rfl
@[simp] theorem rstCommon_tcnt (s : State) : (rstCommon s).tcnt = s.tcnt := by unfold rstCommon; split <;> rfl
@[simp] theorem rstCommon_out (s : State) : (rstCommon s).out = s.out := by unfold rstCommon; split <;> rfl
@[simp] theorem rstCommon_lfsr (s : State) : (rstCommon s).lfsr = s.lfsr := by unfold rstCommon; split <;> rfl
@[simp] theorem rstCommon_chanceInd (s : State) : (rstCommon s).chanceInd = s.chanceInd := by unfold rstCommon; split <;> rfl
@[simp] theorem rstCommon_fdisp (s : State) : (rstCommon s).fdisp = s.fdisp := by unfold rstCommon; split <;> rfl
@[simp] theorem rstCommon_mode (s : State) : (rstCommon s).mode = s.mode := by unfold rstCommon; split <;> rfl
@[simp] theorem rstCommon_straps (s : State) : (rstCommon s).straps = s.straps := by unfold rstCommon; split <;> rfl
@[simp] theorem rstCommon_params (s : State) : (rstCommon s).params = s.params := by unfold rstCommon; split <;> rfl
@[simp] theorem rstCommon_pins (s : State) : (rstCommon s).pins = s.pins := by unfold rstCommon; split <;> rfl
@[simp] theorem rstCommon_inputs (s : State) : (rstCommon s).inputs = s.inputs := by unfold rstCommon; split <;> rfl
@[simp] theorem rstCommon_freeCount (s : State) : (rstCommon s).freeCount = s.freeCount := by unfold rstCommon; split <;> rfl

@[simp] theorem pgDecide_now (s : State) : (pgDecide s).now = s.now := rfl
@[simp] theorem pgDecide_prevClk (s : State) : (pgDecide s).prevClk = s.prevClk := rfl
@[simp] theorem pgDecide_prevRst (s : State) : (pgDecide s).prevRst = s.prevRst := rfl
@[simp] theorem pgDecide_lastTs (s : State) : (pgDecide s).lastTs = s.lastTs := rfl
@[simp] theorem pgDecide_sum (s : State) : (pgDecide s).sum = s.sum := rfl
@[simp] theorem pgDecide_cnt (s : State) : (pgDecide s).cnt = s.cnt := rfl
@[simp] theorem pgDecide_cycleTime (s : State) : (pgDecide s).cycleTime = s.cycleTime := rfl
@[simp] theorem pgDecide_factor (s : State) : (pgDecide s).factor = s.factor := rfl
@[simp] theorem pgDecide_gate (s : State) : (pgDecide s).gate = pgResult s := rfl
@[simp] theorem pgDecide_pcnt (s : State) : (pgDecide s).pcnt = s.pcnt := rfl
@[simp] theorem pgDecide_st (s : State) : (pgDecide s).st = s.st := rfl
@[simp] theorem pgDecide_tper (s : State) : (pgDecide s).tper = s.tper := rfl
@[simp] theorem pgDecide_tcnt (s : State) : (pgDecide s).tcnt = s.tcnt := rfl
@[simp] theorem pgDecide_out (s : State) : (pgDecide s).out = s.out := rfl
@[simp] theorem pgDecide_lfsr (s : State) : (pgDecide s).lfsr = (gateDraw s).2 := rfl
@[simp] theorem pgDecide_chanceInd (s : State) : (pgDecide s).chanceInd = pgResult s := rfl
@[simp] theorem pgDecide_fdisp (s : State) : (pgDecide s).fdisp = s.fdisp := rfl
@[simp] theorem pgDecide_mode (s : State) : (pgDecide s).mode = s.mode := rfl
@[simp] theorem pgDecide_straps (s : State) : (pgDecide s).straps = s.straps := rfl
@[simp] theorem pgDecide_params (s : State) : (pgDecide s).params = s.params := rfl
@[simp] theorem pgDecide_pins (s : State) : (pgDecide s).pins = s.pins := rfl
@[simp] theorem pgDecide_inputs (s : State) : (pgDecide s).inputs = s.inputs := rfl
@[simp] theorem pgDecide_freeCount (s : State) : (pgDecide s).freeCount = s.freeCount := rfl

@[simp] theorem countTimer_now (s : State) : (countTimer s).now = s.now := by unfold countTimer; split <;> rfl
@[simp] theorem countTimer_prevClk (s : State) : (countTimer s).prevClk = s.prevClk := by unfold countTimer; split <;> rfl
@[simp] theorem countTimer_prevRst (s : State) : (countTimer s).prevRst = s.prevRst := by unfold countTimer; split <;> rfl
@[simp] theorem countTimer_lastTs (s : State) : (countTimer s).lastTs = s.lastTs := by unfold countTimer; split <;> rfl
@[simp] theorem countTimer_sum (s : State) : (countTimer s).sum = s.sum := by unfold countTimer; split <;> rfl
@[simp] theorem countTimer_cnt (s : State) : (countTimer s).cnt = s.cnt := by unfold countTimer; split <;> rfl
@[simp] theorem countTimer_cycleTime (s : State) : (countTimer s).cycleTime = s.cycleTime := by unfold countTimer; split <;> rfl
@[simp] theorem countTimer_factor (s : State) : (countTimer s).factor = s.factor := by unfold countTimer; split <;> rfl
@[simp] theorem countTimer_gate (s : State) : (countTimer s).gate = s.gate := by unfold countTimer; split <;> rfl
@[simp] theorem countTimer_pcnt (s : State) : (countTimer s).pcnt = s.pcnt := by unfold countTimer; split <;> rfl
@[simp] theorem countTimer_st (s : State) : (countTimer s).st = s.st := by unfold countTimer; split <;> rfl
@[simp] theorem countTimer_tper (s : State) : (countTimer s).tper = s.tper := by unfold countTimer; split <;> rfl
@[simp] theorem countTimer_out (s : State) : (countTimer s).out = s.out := by unfold countTimer; split <;> rfl
@[simp] theorem countTimer_lfsr (s : State) : (countTimer s).lfsr = s.lfsr := by unfold countTimer; split <;> rfl
@[simp] theorem countTimer_chanceInd (s : State) : (countTimer s).chanceInd = s.chanceInd := by unfold countTimer; split <;> rfl
@[simp] theorem countTimer_fdisp (s : State) : (countTimer s).fdisp = s.fdisp := by unfold countTimer; split <;> rfl
@[simp] theorem countTimer_mode (s : State) : (countTimer s).mode = s.mode := by unfold countTimer; split <;> rfl
@[simp] theorem countTimer_straps (s : State) : (countTimer s).straps = s.straps := by unfold countTimer; split <;> rfl
@[simp] theorem countTimer_params (s : State) : (countTimer s).params = s.params := by unfold countTimer; split <;> rfl
@[simp] theorem countTimer_pins (s : State) : (countTimer s).pins = s.pins := by unfold countTimer; split <;> rfl
@[simp] theorem countTimer_inputs (s : State) : (countTimer s).inputs = s.inputs := by unfold countTimer; split <;> rfl
@[simp] theorem countTimer_freeCount (s : State) : (countTimer s).freeCount = s.freeCount := by unfold countTimer; split <;> rfl

@[simp] theorem startTick_now (x : Stim) (s : State) : (startTick x s).now = s.now := by simp [startTick]
@[simp] theorem startTick_prevClk (x : Stim) (s : State) : (startTick x s).prevClk = s.prevClk := by simp [startTick]
@[simp] theorem startTick_prevRst (x : Stim) (s : State) : (startTick x s).prevRst = s.prevRst := by simp [startTick]
@[simp] theorem startTick_lastTs (x : Stim) (s : State) : (startTick x s).lastTs = s.lastTs := by simp [startTick]
@[simp] theorem startTick_sum (x : Stim) (s : State) : (startTick x s).sum = s.sum := by simp [startTick]
@[simp] theorem startTick_cnt (x : Stim) (s : State) : (startTick x s).cnt = s.cnt := by simp [startTick]
@[simp] theorem startTick_cycleTime (x : Stim) (s : State) : (startTick x s).cycleTime = s.cycleTime := by simp [startTick]
@[simp] theorem startTick_factor (x : Stim) (s : State) : (startTick x s).factor = s.factor := by simp [startTick]
@[simp] theorem startTick_gate (x : Stim) (s : State) : (startTick x s).gate = s.gate := by simp [startTick]
@[simp] theorem startTick_pcnt (x : Stim) (s : State) : (startTick x s).pcnt = s.pcnt := by simp [startTick]
@[simp] theorem startTick_st (x : Stim) (s : State) : (startTick x s).st = s.st := by simp [startTick]
@[simp] theorem startTick_tper (x : Stim) (s : State) : (startTick x s).tper = s.tper := by simp [startTick]
@[simp] theorem startTick_out (x : Stim) (s : State) : (startTick x s).out = s.out := by simp [startTick]
@[simp] theorem startTick_lfsr (x : Stim) (s : State) : (startTick x s).lfsr = s.lfsr := by simp [startTick]
@[simp] theorem startTick_chanceInd (x : Stim) (s : State) : (startTick x s).chanceInd = s.chanceInd := by simp [startTick]
@[simp] theorem startTick_fdisp (x : Stim) (s : State) : (startTick x s).fdisp = s.fdisp := by simp [startTick]
@[simp] theorem startTick_mode (x : Stim) (s : State) : (startTick x s).mode = s.mode := by simp [startTick]
@[simp] theorem startTick_straps (x : Stim) (s : State) : (startTick x s).straps = s.straps := by simp [startTick]
@[simp] theorem startTick_params (x : Stim) (s : State) : (startTick x s).params = s.params := by simp [startTick]
@[simp] theorem startTick_pins (x : Stim) (s : State) : (startTick x s).pins = x := by simp [startTick]
@[simp] theorem startTick_inputs (x : Stim) (s : State) : (startTick x s).inputs = s.inputs := by simp [startTick]
@[simp] theorem startTick_freeCount (x : Stim) (s : State) : (startTick x s).freeCount = s.freeCount := by simp [startTick]

@[simp] theorem endTick_now (s : State) : (endTick s).now = s.now + 1 := rfl
@[simp] theorem endTick_prevClk (s : State) : (endTick s).prevClk = s.pins.clockIn := rfl
@[simp] theorem endTick_prevRst (s : State) : (endTick s).prevRst = s.pins.resetIn := rfl
@[simp] theorem endTick_lastTs (s : State) : (endTick s).lastTs = s.lastTs := rfl
@[simp] theorem endTick_sum (s : State) : (endTick s).sum = s.sum := rfl
@[simp] theorem endTick_cnt (s : State) : (endTick s).cnt = s.cnt := rfl
@[simp] theorem endTick_cycleTime (s : State) : (endTick s).cycleTime = s.cycleTime := rfl
@[simp] theorem endTick_factor (s : State) : (endTick s).factor = s.factor := rfl
@[simp] theorem endTick_gate (s : State) : (endTick s).gate = s.gate := rfl
@[simp] theorem endTick_pcnt (s : State) : (endTick s).pcnt = s.pcnt := rfl
@[simp] theorem endTick_st (s : State) : (endTick s).st = s.st := rfl
@[simp] theorem endTick_tper (s : State) : (endTick s).tper = s.tper := rfl
@[simp] theorem endTick_tcnt (s : State) : (endTick s).tcnt = s.tcnt := rfl
@[simp] theorem endTick_out (s : State) : (endTick s).out = s.out := rfl
@[simp] theorem endTick_lfsr (s : State) : (endTick s).lfsr = s.lfsr := rfl
@[simp] theorem endTick_chanceInd (s : State) : (endTick s).chanceInd = s.chanceInd := rfl
@[simp] theorem endTick_fdisp (s : State) : (endTick s).fdisp = s.fdisp := rfl
@[simp] theorem endTick_mode (s : State) : (endTick s).mode = s.mode := rfl
@[simp] theorem endTick_straps (s : State) : (endTick s).straps = s.straps := rfl
@[simp] theorem endTick_params (s : State) : (endTick s).params = s.params := rfl
@[simp] theorem endTick_pins (s : State) : (endTick s).pins = s.pins := rfl
@[simp] theorem endTick_inputs (s : State) : (endTick s).inputs = s.inputs := rfl
@[simp] theorem endTick_freeCount (s : State) : (endTick s).freeCount = s.freeCount := rfl

@[simp] theorem takeInput_now (s : State) : (takeInput s).now = s.now := by unfold takeInput; split <;> rfl
@[simp] theorem takeInput_prevClk (s : State) : (takeInput s).prevClk = s.prevClk := by unfold takeInput; split <;> rfl
@[simp] theorem takeInput_prevRst (s : State) : (takeInput s).prevRst = s.prevRst := by unfold takeInput; split <;> rfl
@[simp] theorem takeInput_lastTs (s : State) : (takeInput s).lastTs = s.lastTs := by unfold takeInput; split <;> rfl
@[simp] theorem takeInput_sum (s : State) : (takeInput s).sum = s.sum := by unfold takeInput; split <;> rfl
@[simp] theorem takeInput_cnt (s : State) : (takeInput s).cnt = s.cnt := by unfold takeInput; split <;> rfl
@[simp] theorem takeInput_cycleTime (s : State) : (takeInput s).cycleTime = s.cycleTime := by unfold takeInput; split <;> rfl
@[simp] theorem takeInput_factor (s : State) : (takeInput s).factor = s.factor := by unfold takeInput; split <;> rfl
@[simp] theorem takeInput_gate (s : State) : (takeInput s).gate = s.gate := by unfold takeInput; split <;> rfl
@[simp] theorem takeInput_pcnt (s : State) : (takeInput s).pcnt = s.pcnt := by unfold takeInput; split <;> rfl
@[simp] theorem takeInput_st (s : State) : (takeInput s).st = s.st := by unfold takeInput; split <;> rfl
@[simp] theorem takeInput_tper (s : State) : (takeInput s).tper = s.tper := by unfold takeInput; split <;> rfl
@[simp] theorem takeInput_tcnt (s : State) : (takeInput s).tcnt = s.tcnt := by unfold takeInput; split <;> rfl
@[simp] theorem takeInput_out (s : State) : (takeInput s).out = s.out := by unfold takeInput; split <;> rfl
@[simp] theorem takeInput_lfsr (s : State) : (takeInput s).lfsr = s.lfsr := by unfold takeInput; split <;> rfl
@[simp] theorem takeInput_chanceInd (s : State) : (takeInput s).chanceInd = s.chanceInd := by unfold takeInput; split <;> rfl
@[simp] theorem takeInput_fdisp (s : State) : (takeInput s).fdisp = s.fdisp := by unfold takeInput; split <;> rfl
@[simp] theorem takeInput_mode (s : State) : (takeInput s).mode = s.mode := by unfold takeInput; split <;> rfl
@[simp] theorem takeInput_straps (s : State) : (takeInput s).straps = s.straps := by unfold takeInput; split <;> rfl
@[simp] theorem takeInput_params (s : State) : (takeInput s).params = s.params := by unfold takeInput; split <;> rfl
@[simp] theorem takeInput_pins (s : State) : (takeInput s).pins = s.pins := by unfold takeInput; split <;> rfl

@[simp] theorem clkCommon_now (s : State) : (clkCommon s).now = s.now := by simp [clkCommon]
@[simp] theorem clkCommon_prevClk (s : State) : (clkCommon s).prevClk = s.prevClk := by simp [clkCommon]
@[simp] theorem clkCommon_prevRst (s : State) : (clkCommon s).prevRst = s.prevRst := by simp [clkCommon]
@[simp] theorem clkCommon_lastTs (s : State) : (clkCommon s).lastTs = s.now := by simp [clkCommon]
@[simp] theorem clkCommon_sum (s : State) : (clkCommon s).sum = (peOnEdge s.now (timerStop s)).sum := rfl
@[simp] theorem clkCommon_cnt (s : State) : (clkCommon s).cnt = (peOnEdge s.now (timerStop s)).cnt := rfl
@[simp] theorem clkCommon_cycleTime (s : State) : (clkCommon s).cycleTime = (peOnEdge s.now (timerStop s)).cycleTime := rfl
@[simp] theorem clkCommon_factor (s : State) : (clkCommon s).factor = (fsSelect (peOnEdge s.now (timerStop s))).1 := rfl
@[simp] theorem clkCommon_gate (s : State) : (clkCommon s).gate = s.gate := by simp [clkCommon]
@[simp] theorem clkCommon_pcnt (s : State) : (clkCommon s).pcnt = s.pcnt := by simp [clkCommon]
@[simp] theorem clkCommon_st (s : State) : (clkCommon s).st = .idle := by simp [clkCommon]
@[simp] theorem clkCommon_tper (s : State) : (clkCommon s).tper = s.tper := by simp [clkCommon]
@[simp] theorem clkCommon_tcnt (s : State) : (clkCommon s).tcnt = s.tcnt := by simp [clkCommon]
@[simp] theorem clkCommon_out (s : State) : (clkCommon s).out = s.out := by simp [clkCommon]
@[simp] theorem clkCommon_lfsr (s : State) : (clkCommon s).lfsr = (fsSelect (peOnEdge s.now (timerStop s))).2 := rfl
@[simp] theorem clkCommon_chanceInd (s : State) : (clkCommon s).chanceInd = s.chanceInd := by simp [clkCommon]
@[simp] theorem clkCommon_fdisp (s : State) : (clkCommon s).fdisp = s.fdisp := by simp [clkCommon]
@[simp] theorem clkCommon_mode (s : State) : (clkCommon s).mode = s.mode := by simp [clkCommon]
@[simp] theorem clkCommon_straps (s : State) : (clkCommon s).straps = s.straps := by simp [clkCommon]
@[simp] theorem clkCommon_params (s : State) : (clkCommon s).params = s.params := by simp [clkCommon]
@[simp] theorem clkCommon_pins (s : State) : (clkCommon s).pins = s.pins := by simp [clkCommon]
@[simp] theorem clkCommon_inputs (s : State) : (clkCommon s).inputs = s.inputs := by simp [clkCommon]
@[simp] theorem clkCommon_freeCount (s : State) : (clkCommon s).freeCount = s.freeCount := by simp [clkCommon]

@[simp] theorem withChance_now (a b : Reading) (s : State) : (withChance a b s).now = s.now := rfl
@[simp] theorem withChance_prevClk (a b : Reading) (s : State) : (withChance a b s).prevClk = s.prevClk := rfl
@[simp] theorem withChance_prevRst (a b : Reading) (s : State) : (withChance a b s).prevRst = s.prevRst := rfl
@[simp] theorem withChance_lastTs (a b : Reading) (s : State) : (withChance a b s).lastTs = s.lastTs := rfl
@[simp] theorem withChance_sum (a b : Reading) (s : State) : (withChance a b s).sum = s.sum := rfl
@[simp] theorem withChance_cnt (a b : Reading) (s : State) : (withChance a b s).cnt = s.cnt := rfl
@[simp] theorem withChance_cycleTime (a b : Reading) (s : State) : (withChance a b s).cycleTime = s.cycleTime := rfl
@[simp] theorem withChance_factor (a b : Reading) (s : State) : (withChance a b s).factor = s.factor := rfl
@[simp] theorem withChance_gate (a b : Reading) (s : State) : (withChance a b s).gate = s.gate := rfl
@[simp] theorem withChance_pcnt (a b : Reading) (s : State) : (withChance a b s).pcnt = s.pcnt := rfl
@[simp] theorem withChance_st (a b : Reading) (s : State) : (withChance a b s).st = s.st := rfl
@[simp] theorem withChance_tper (a b : Reading) (s : State) : (withChance a b s).tper = s.tper := rfl
@[simp] theorem withChance_tcnt (a b : Reading) (s : State) : (withChance a b s).tcnt = s.tcnt := rfl
@[simp] theorem withChance_out (a b : Reading) (s : State) : (withChance a b s).out = s.out := rfl
@[simp] theorem withChance_lfsr (a b : Reading) (s : State) : (withChance a b s).lfsr = s.lfsr := rfl
@[simp] theorem withChance_chanceInd (a b : Reading) (s : State) : (withChance a b s).chanceInd = s.chanceInd := rfl
@[simp] theorem withChance_fdisp (a b : Reading) (s : State) : (withChance a b s).fdisp = s.fdisp := rfl
@[simp] theorem withChance_mode (a b : Reading) (s : State) : (withChance a b s).mode = s.mode := rfl
@[simp] theorem withChance_straps (a b : Reading) (s : State) : (withChance a b s).straps = s.straps := rfl
@[simp] theorem withChance_params (a b : Reading) (s : State) : (withChance a b s).params = s.params := rfl
@[simp] theorem withChance_inputs (a b : Reading) (s : State) : (withChance a b s).inputs = s.inputs := rfl
@[simp] theorem withChance_freeCount (a b : Reading) (s : State) : (withChance a b s).freeCount = s.freeCount := rfl

end Sys2Proof.Machine
end

