-- ==== Sys2Proof/Laws/Ops.lean ====
section
/-!
SUPPORT. One lemma for each shared operation that says what it can do, for proofs to cite instead of unfolding it.
-/

namespace Sys2Proof.Machine

open Sys2Proof.Config

@[simp] theorem andThen_next (s : State) (k : State → Result) : andThen (.next s) k = k s := rfl

theorem andThen_eq_next {r : Result} {k : State → Result} {t : State} (h : andThen r k = .next t) :
    ∃ s, r = .next s ∧ k s = .next t := by
  cases r with
  | next s => exact ⟨s, rfl, h⟩
  | fault f => nomatch f
  | refused e => simp [andThen] at h

theorem andThen_assoc (r : Result) (k l : State → Result) :
    andThen (andThen r k) l = andThen r fun s => andThen (k s) l := by
  cases r <;> rfl

/-! The timer -/

theorem atLeastOne_toNat (p : Word) : (atLeastOne p).toNat = max 1 p.toNat := by
  unfold atLeastOne
  split
  · simp_all
  · rename_i h
    have : p.toNat ≠ 0 := fun e => h (BitVec.eq_of_toNat_eq (by simpa using e))
    omega

theorem atLeastOne_eq_ofNat (p : Word) : atLeastOne p = BitVec.ofNat 32 (max 1 p.toNat) := by
  apply BitVec.eq_of_toNat_eq
  rw [atLeastOne_toNat, BitVec.toNat_ofNat, Nat.mod_eq_of_lt (by have := p.isLt; omega)]

theorem halfPeriod_toNat (ct : Word) : (halfPeriod ct).toNat = ct.toNat / 2 := by simp [halfPeriod]

theorem ratchetPeriod_toNat (ct : Word) (f : BitVec 5) (h : f ≠ 0) :
    (ratchetPeriod ct f).toNat = ct.toNat / (2 * f.toNat) := by
  have := Nat.div_le_self ct.toNat (2 * f.toNat)
  have := ct.isLt
  simp only [ratchetPeriod, h, if_false, BitVec.toNat_ofNat]
  exact Nat.mod_eq_of_lt (by omega)

theorem timerFires_iff (s : State) : timerFires s = true ↔ s.st = .emit ∧ s.tcnt.toNat ≤ 1 := by
  simp [timerFires, BitVec.le_def]

/-- The countdown: nothing while idle, a reload on a fire, one less otherwise. -/
theorem countTimer_tcnt (s : State) : (countTimer s).tcnt =
    if s.st = .emit then (if timerFires s then atLeastOne s.tper else s.tcnt - 1) else s.tcnt := by
  unfold countTimer
  split <;> simp_all

/-! The estimator -/

@[simp] theorem peDelta_timerStop (t : Word) (s : State) : peDelta t (timerStop s) = peDelta t s := rfl

theorem peDelta_toNat (t : Word) (s : State) :
    (peDelta t s).toNat = (t.toNat + 2 ^ 32 - s.lastTs.toNat) % 2 ^ 32 := by
  have := s.lastTs.isLt
  rw [peDelta, BitVec.toNat_sub]
  congr 1
  omega

/-- The fifth call of a window (R121, R122). -/
theorem peOnEdge_closes (t : Word) (s : State) (h : s.cnt.toNat = 4) :
    peOnEdge t s = { s with
      lastTs := t, cycleTime := BitVec.ofNat 32 (max 1 ((s.sum.toNat + (peDelta t s).toNat) / 5)), sum := 0,
      cnt := 0 } := by
  simp [peOnEdge, h]

/-- Every other call (R121). -/
theorem peOnEdge_adds (t : Word) (s : State) (h : s.cnt.toNat ≠ 4) :
    peOnEdge t s = { s with
      lastTs := t, sum := BitVec.ofNat 35 (s.sum.toNat + (peDelta t s).toNat),
      cnt := BitVec.ofNat 3 (s.cnt.toNat + 1) } := by
  simp only [peOnEdge]
  rw [if_neg (by simp only [nAvg]; omega)]

@[simp] theorem peOnEdge_timerStop (t : Word) (s : State) :
    peOnEdge t (timerStop s) = { peOnEdge t s with st := .idle } := by
  by_cases h : s.cnt.toNat = 4
  · rw [peOnEdge_closes t s h, peOnEdge_closes t (timerStop s) (by simpa using h)]
    rfl
  · rw [peOnEdge_adds t s h, peOnEdge_adds t (timerStop s) (by simpa using h)]
    rfl

/-! The selector -/

theorem fsIndex_lt (r n : Nat) (h : 0 < n) : fsIndex r n < n := by
  unfold fsIndex
  omega

/-- Every value of the MULT table is at most 5. -/
theorem multValue_le (r : Nat) : (multValue r).toNat ≤ 5 := by
  have h := fsIndex_lt r 6 (by decide)
  unfold multValue
  generalize fsIndex r 6 = i at h
  revert h
  revert i
  decide

/-- Every value of the DIV table is a legal factor. -/
theorem divValue_mem (r : Nat) : (divValue r).toNat ∈ [0, 1, 2, 3, 4, 5, 6, 7, 8, 9, 16] := by
  have h := fsIndex_lt r 11 (by decide)
  unfold divValue
  generalize fsIndex r 11 = i at h
  revert h
  revert i
  decide

/-- The selection depends on the mode, the sampled ports, the parameters and the generator alone. -/
theorem fsSelect_congr {s t : State} (hm : s.mode = t.mode) (hp : s.pins = t.pins) (hq : s.params = t.params)
    (hl : s.lfsr = t.lfsr) : fsSelect s = fsSelect t := by
  simp only [fsSelect, maxMultBounds, adcRead, hm, hp, hq, hl]

@[simp] theorem fsSelect_peOnEdge (t : Word) (s : State) : fsSelect (peOnEdge t s) = fsSelect s :=
  fsSelect_congr (by simp) (by simp) (by simp) (by simp)

@[simp] theorem fsSelect_timerStop (s : State) : fsSelect (timerStop s) = fsSelect s :=
  fsSelect_congr (by simp) (by simp) (by simp) (by simp)

@[simp] theorem fsSelect_st (s : State) (p : Phase) : fsSelect { s with st := p } = fsSelect s :=
  fsSelect_congr rfl rfl rfl rfl

/-- The common part of CLK_EDGE as one update of the old state (R176). -/
theorem clkCommon_eq (s : State) : clkCommon s = { s with
    st := .idle, lastTs := s.now, sum := (peOnEdge s.now s).sum, cnt := (peOnEdge s.now s).cnt,
    cycleTime := (peOnEdge s.now s).cycleTime, factor := (fsSelect s).1, lfsr := (fsSelect s).2 } := by
  have e : fsSelect (peOnEdge s.now (timerStop s)) = fsSelect s := by simp only [fsSelect_peOnEdge, fsSelect_timerStop]
  simp only [clkCommon, e]
  by_cases h : s.cnt.toNat = 4
  · rw [peOnEdge_timerStop, peOnEdge_closes s.now s h]
  · rw [peOnEdge_timerStop, peOnEdge_adds s.now s h]

/-- The common part of RST_EDGE as one update of the old state (R184). -/
theorem rstCommon_eq (s : State) : rstCommon s = { s with
    sum := if s.straps.rstRestartsAvg = true then 0 else s.sum,
    cnt := if s.straps.rstRestartsAvg = true then 0 else s.cnt } := by
  unfold rstCommon
  split <;> simp_all [peRestart]

theorem pcntSucc_toNat (p : BitVec 8) : (pcntSucc p).toNat = min (p.toNat + 1) 255 := by
  simp only [pcntSucc, BitVec.toNat_ofNat]
  exact Nat.mod_eq_of_lt (by omega)

end Sys2Proof.Machine
end

