-- ==== Sys2Proof/Laws/Rng.lean ====
section
/-!
SUPPORT. What the generator's operations can do: how large a draw is, and that the default step keeps a nonzero state.
-/

namespace Sys2Proof.Machine

open Sys2Proof.Config

@[simp] theorem rngBits_zero (sel : RngStepSel) (l : BitVec 16) : rngBits sel 0 l = (0, l) := rfl

/-- A draw onto `v`: `v` moves up by the bits drawn, the generator does not depend on it. -/
theorem rngBitsOnto_eq (sel : RngStepSel) (n v : Nat) (l : BitVec 16) :
    rngBitsOnto sel n v l = (v * 2 ^ n + (rngBits sel n l).1, (rngBits sel n l).2) := by
  induction n generalizing v l with
  | zero => simp [rngBitsOnto]
  | succ n ih =>
    simp only [rngBits, rngBitsOnto]
    rw [ih, ih (2 * 0 + _)]
    refine Prod.ext ?_ rfl
    simp only
    ring

/-- The draw below the span is below the span, by either method (R155, R156). -/
theorem rejectLoop_lt (sel : RngStepSel) (n span tries : Nat) (l : BitVec 16) (r : Nat × BitVec 16)
    (h : rejectLoop sel n span tries l = some r) : r.1 < span := by
  induction tries generalizing l with
  | zero => simp [rejectLoop] at h
  | succ k ih =>
    simp only [rejectLoop] at h
    split at h
    · cases h
      assumption
    · exact ih _ h

theorem drawBelow_lt (p : Params) (n lo hi : Nat) (l : BitVec 16) : (drawBelow p n lo hi l).1 < hi - lo + 1 := by
  unfold drawBelow
  dsimp only
  split
  · exact Nat.mod_lt _ (Nat.succ_pos _)
  · split
    · exact rejectLoop_lt _ _ _ _ _ _ ‹_›
    · exact Nat.mod_lt _ (Nat.succ_pos _)

/-- The default step keeps a nonzero state nonzero (R152 (b)). -/
theorem rngStep_fibonacci_ne_zero (l : BitVec 16) (h : l ≠ 0) : (rngStep .fibonacci l).2 ≠ 0 := by
  intro e
  apply h
  have hb (i : Nat) :
      (bit (xor (xor (xor (l.getLsbD 0) (l.getLsbD 2)) (l.getLsbD 3)) (l.getLsbD 5)) ++ l.extractLsb' 1 15).getLsbD i =
        false := by
    have : (rngStep .fibonacci l).2.getLsbD i = false := by rw [e]; exact BitVec.getLsbD_zero
    exact this
  simp only [BitVec.getLsbD_append, BitVec.getLsbD_extractLsb'] at hb
  have up (i : Nat) (hi : i < 15) : l.getLsbD (i + 1) = false := by
    have := hb i
    rw [if_pos hi] at this
    simpa [hi, Nat.add_comm] using this
  have bottom : l.getLsbD 0 = false := by
    have top := hb 15
    rw [if_neg (by decide), up 1 (by decide), up 2 (by decide), up 4 (by decide)] at top
    cases l0 : l.getLsbD 0
    · rfl
    · rw [l0] at top
      exact absurd top (by decide)
  apply BitVec.eq_of_getLsbD_eq
  intro i hi
  match i with
  | 0 => exact bottom.trans BitVec.getLsbD_zero.symm
  | k + 1 => exact (up k (by omega)).trans BitVec.getLsbD_zero.symm

/-- A property of the generator's state that one step keeps is kept by a draw of any width. -/
theorem rngBits_keeps (sel : RngStepSel) (P : BitVec 16 → Prop) (hP : ∀ l, P l → P (rngStep sel l).2) (n : Nat)
    (l : BitVec 16) (h : P l) : P (rngBits sel n l).2 := by
  suffices ∀ v, P (rngBitsOnto sel n v l).2 from this 0
  intro v
  induction n generalizing l v with
  | zero => exact h
  | succ n ih => exact ih _ (hP _ h) _

/-- A property of the generator's state that one step keeps is kept by a bounded draw, by either method. -/
theorem rngRange_keeps (p : Params) (P : BitVec 16 → Prop) (hP : ∀ l, P l → P (rngStep p.rngStep l).2)
    (n lo hi : Nat) (l : BitVec 16) (h : P l) : P (rngRange p n lo hi l).2 := by
  have draws : ∀ k l, P l → P (lfsrAfterDraws p.rngStep n k l) := by
    intro k
    induction k with
    | zero => exact fun _ h => h
    | succ k ih => exact fun l h => ih _ (rngBits_keeps _ P hP n l h)
  have loop : ∀ tries l r, P l → rejectLoop p.rngStep n (hi - lo + 1) tries l = some r → P r.2 := by
    intro tries
    induction tries with
    | zero => intro l r _ e; simp [rejectLoop] at e
    | succ k ih =>
      intro l r h e
      simp only [rejectLoop] at e
      split at e
      · cases e
        exact rngBits_keeps _ P hP n l h
      · exact ih _ _ (rngBits_keeps _ P hP n l h) e
  simp only [rngRange, drawBelow]
  split
  · exact rngBits_keeps _ P hP n l h
  · split
    · exact loop _ _ _ h ‹_›
    · exact draws _ _ h

end Sys2Proof.Machine
end

