-- ==== Sys2Proof/Laws/Step.lean ====
section
/-!
SUPPORT. What any instruction can do to the fields the step rule itself owns, that every instruction completes, and the
shape of a tick.
-/

namespace Sys2Proof.Machine

open Sys2Proof.Config

/-- CLK_EDGE.DIV as one update of the state its gate decision leaves. -/
theorem execClkEdgeDiv_eq (s : State) :
    let s1 := pgDecide { clkCommon s with fdisp := .normal, pcnt := pcntSucc s.pcnt }
    let hit := s1.gate && pcntReached s1.pcnt s1.factor
    execClkEdgeDiv s = .next { s1 with pcnt := if hit then 0 else s1.pcnt, out := hit } := by
  simp only [execClkEdgeDiv, clkCommon_pcnt]
  split <;> simp_all

/-- The fields an instruction never writes: `now`, the previous samples, the straps, the parameters and the input side
belong to the step rule (R50). -/
structure SameSurroundings (s t : State) : Prop where
  now : t.now = s.now
  prevClk : t.prevClk = s.prevClk
  prevRst : t.prevRst = s.prevRst
  straps : t.straps = s.straps
  params : t.params = s.params
  pins : t.pins = s.pins
  inputs : t.inputs = s.inputs
  freeCount : t.freeCount = s.freeCount

theorem SameSurroundings.refl (s : State) : SameSurroundings s s := ⟨rfl, rfl, rfl, rfl, rfl, rfl, rfl, rfl⟩

theorem SameSurroundings.trans {s t u : State} (h : SameSurroundings s t) (k : SameSurroundings t u) :
    SameSurroundings s u :=
  ⟨k.now.trans h.now, k.prevClk.trans h.prevClk, k.prevRst.trans h.prevRst, k.straps.trans h.straps,
    k.params.trans h.params, k.pins.trans h.pins, k.inputs.trans h.inputs, k.freeCount.trans h.freeCount⟩

/-- Every instruction completes, and leaves the step rule's own fields alone (R50, R210). -/
theorem exec_completes (i : Instr) (s : State) : ∃ t, exec i s = .next t ∧ SameSurroundings s t := by
  cases i with
  | clkEdgeDiv => exact ⟨_, execClkEdgeDiv_eq s, by constructor <;> simp⟩
  | clkEdgeF0 m => exact ⟨_, rfl, by constructor <;> simp⟩
  | clkEdgeF1 m => exact ⟨_, rfl, by constructor <;> simp⟩
  | clkEdgeMult => exact ⟨_, rfl, by constructor <;> simp⟩
  | clkEdgeMaxmult => exact ⟨_, rfl, by constructor <;> simp⟩
  | rstEdgeDiv => exact ⟨_, rfl, by constructor <;> simp⟩
  | rstEdgeMult => exact ⟨_, rfl, by constructor <;> simp⟩
  | rstEdgeMaxmult => exact ⟨_, rfl, by constructor <;> simp⟩
  | nop => exact ⟨_, rfl, .refl s⟩
  | tmrTick m => exact ⟨_, rfl, by constructor <;> rfl⟩
  | modeSetDiv => exact ⟨_, rfl, by constructor <;> rfl⟩
  | modeSetMult => exact ⟨_, rfl, by constructor <;> rfl⟩
  | modeSetMaxmult => exact ⟨_, rfl, by constructor <;> rfl⟩
  | modeSetIgn => exact ⟨_, rfl, .refl s⟩
  | poll m => exact ⟨_, rfl, by constructor <;> rfl⟩

theorem exec_surroundings {i : Instr} {s t : State} (h : exec i s = .next t) : SameSurroundings s t := by
  obtain ⟨u, e, k⟩ := exec_completes i s
  rw [h] at e
  cases e
  exact k

theorem performWord_of_decode {w : Byte} {i : Instr} (h : decode w = .ok i) (s : State) :
    performWord w s = exec i s := by
  rw [performWord, h]

/-- The state after a sequence of operations, if a word of a state always decodes; what every operation of it keeps is
kept by the whole (R171). -/
theorem performAll_induct (P : State → Prop) (hP : ∀ op s, P s → ∃ t, performWord (formWord op s) s = .next t ∧ P t)
    (ops : List Op) (s : State) (h : P s) : ∃ t, performAll ops s = .next t ∧ P t := by
  induction ops generalizing s with
  | nil => exact ⟨s, rfl, h⟩
  | cons op rest ih =>
    obtain ⟨t, e, k⟩ := hP op s h
    obtain ⟨u, e', k'⟩ := ih t k
    exact ⟨u, by simp [performAll, e, e'], k'⟩

/-- A step on a tick, and a step on a hardware reset. -/
theorem step_tick {s : State} {stim : Stim} (h : nextInput s = .tick stim) : step s = tick stim (takeInput s) := by
  rw [step, h]
  rfl

theorem step_hardReset {s : State} {straps : Straps} (h : nextInput s = .hardReset straps) :
    step s = .next (hardReset straps (takeInput s)) := by
  rw [step, h]
  rfl

end Sys2Proof.Machine
end

