-- ==== Sys2Proof/Laws/PerInstr.lean ====
section
/-!
SUPPORT. The family of statements made per instruction: what bits every instruction's word has (R89, R92).
-/

namespace Sys2Proof.Laws.WordBits

open Sys2Proof.Machine

/-- The reserved bit of the word is 0, and its class field is 0 unless the instruction is a CLK_EDGE variant and is never
0b11 (R89, R92). -/
def Statement (i : Instr) : Prop :=
  (encode i).getLsbD 0 = false ∧ (encode i).extractLsb' 1 2 ≠ 3 ∧
    (isClkEdge i = false → (encode i).extractLsb' 1 2 = 0)

theorem nop : Statement .nop := by unfold Statement; decide
theorem tmrTick (m : BitVec 2) : Statement (.tmrTick m) := by unfold Statement; revert m; decide
theorem rstEdgeDiv : Statement .rstEdgeDiv := by unfold Statement; decide
theorem rstEdgeMult : Statement .rstEdgeMult := by unfold Statement; decide
theorem rstEdgeMaxmult : Statement .rstEdgeMaxmult := by unfold Statement; decide
theorem clkEdgeF0 (m : BitVec 2) : Statement (.clkEdgeF0 m) := by unfold Statement; revert m; decide
theorem clkEdgeF1 (m : BitVec 2) : Statement (.clkEdgeF1 m) := by unfold Statement; revert m; decide
theorem clkEdgeDiv : Statement .clkEdgeDiv := by unfold Statement; decide
theorem clkEdgeMult : Statement .clkEdgeMult := by unfold Statement; decide
theorem clkEdgeMaxmult : Statement .clkEdgeMaxmult := by unfold Statement; decide
theorem modeSetDiv : Statement .modeSetDiv := by unfold Statement; decide
theorem modeSetMult : Statement .modeSetMult := by unfold Statement; decide
theorem modeSetMaxmult : Statement .modeSetMaxmult := by unfold Statement; decide
theorem modeSetIgn : Statement .modeSetIgn := by unfold Statement; decide
theorem poll (m : BitVec 2) : Statement (.poll m) := by unfold Statement; revert m; decide

end Sys2Proof.Laws.WordBits
end

