-- ==== Sys2Proof/Laws/Trace.lean ====
section
/-!
SUPPORT. What a line of a trace program can set and at which tick, the listing without NOP lines, and the unfolding of the
conditions on the ticks of a run.
-/

namespace Sys2Proof.Machine

open Sys2Proof.Config

/-! Trace programs -/

/-- A line requests a mode at the tick it names only (R99, R100). -/
theorem Trace.Line.modeAt_eq_none (c : Trace.Controller) (u : Nat) (l : Trace.Line) (h : u ≠ l.tick) :
    l.modeAt c u = none := by
  cases l <;> first | rfl | exact if_neg h

/-- The readings of a line hold from the tick it names (R99). -/
theorem Trace.Line.readings_tick (l : Trace.Line) (r : Nat × Reading × Reading × Reading × Reading)
    (h : l.readings = some r) : r.1 = l.tick := by
  cases l <;> simp [Trace.Line.readings] at h
  subst h
  rfl

/-- `allAgree` says that any two entries are equal. -/
theorem Trace.allAgree_iff {α : Type} [DecidableEq α] (l : List α) :
    Trace.allAgree l = true ↔ ∀ a b, a ∈ l → b ∈ l → a = b := by
  cases l with
  | nil => simp [Trace.allAgree]
  | cons x xs =>
    simp only [Trace.allAgree, List.all_eq_true, decide_eq_true_eq, List.mem_cons]
    constructor
    · rintro h a b (rfl | ha) (rfl | hb)
      · rfl
      · exact (h b hb).symm
      · exact h a ha
      · rw [h a ha, h b hb]
    · intro h b hb
      exact h b x (.inr hb) (.inl rfl)

/-- The operations a listing keeps (R101). -/
@[simp] theorem Trace.mem_omitNops (r : Word × Byte) (l : List (Word × Byte)) :
    r ∈ Trace.omitNops l ↔ r ∈ l ∧ r.2 ≠ encode .nop := by
  simp [Trace.omitNops]

/-- A program starts exactly if its CT_INIT is legal and it is well formed (R99, R211). -/
theorem Trace.start_eq_ok (p : Trace.Program) (s : State) :
    Trace.start p = .ok s ↔
      ∃ ct, CtInit.ofWord? p.ctInit = some ct ∧ p.wellFormed = true ∧ s = Trace.startState p ct := by
  unfold Trace.start
  cases CtInit.ofWord? p.ctInit with
  | none => simp
  | some ct => by_cases h : p.wellFormed = true <;> simp [h, eq_comm]

/-! The conditions on the ticks of a run -/

theorem risingEdge_eq_true (level prev : Bool) : risingEdge level prev = true ↔ level = true ∧ prev = false := by
  cases level <;> cases prev <;> decide

theorem leavesEmission_iff (stim : Stim) (s : State) :
    leavesEmission stim s = true ↔
      (stim.clockIn = false ∨ s.prevClk = true) ∧
        (stim.resetIn = false ∨ s.prevRst = true ∨ s.mode ≠ .div) := by
  simp only [leavesEmission, risingEdge]
  generalize stim.clockIn = c, s.prevClk = pc, stim.resetIn = r, s.prevRst = pr, s.mode = m
  revert c pc r pr
  cases m <;> decide

@[simp] theorem undisturbed_zero (s : State) : undisturbed 0 s = true := rfl

theorem undisturbed_succ (n : Nat) (s : State) :
    undisturbed (n + 1) s = true ↔
      ∃ stim t, nextInput s = .tick stim ∧ leavesEmission stim s = true ∧ step s = .next t ∧
        undisturbed n t = true := by
  simp only [undisturbed]
  cases nextInput s with
  | hardReset straps => simp
  | tick stim =>
    cases step s with
    | next t => simp
    | fault f => nomatch f
    | refused e => simp

theorem dividerEdges_succ (f n e : Nat) (s : State) :
    dividerEdges f (n + 1) s = some e ↔
      ∃ stim t k, nextInput s = .tick stim ∧ step s = .next t ∧ dividerTick f stim s = true ∧
        dividerEdges f n t = some k ∧ e = k + (risingEdge stim.clockIn s.prevClk).toNat := by
  simp only [dividerEdges]
  cases nextInput s with
  | hardReset straps => simp
  | tick stim =>
    cases step s with
    | next t =>
      constructor
      · intro h
        dsimp only at h
        split at h
        · obtain ⟨k, hk, rfl⟩ := Option.map_eq_some_iff.1 h
          exact ⟨stim, t, k, rfl, rfl, ‹_›, hk, rfl⟩
        · cases h
      · rintro ⟨_, _, k, ⟨⟩, ⟨⟩, h, hk, rfl⟩
        simp only [h, hk, if_true, Option.map_some]
    | fault f => nomatch f
    | refused e => simp

end Sys2Proof.Machine
end

