-- ==== Sys2Proof/Machine/TraceText.lean ====
section
/-!
DEFINITION. The text of a trace program (R99, R100): from characters to a program, or nothing where a line is none of the
language's.
-/

namespace Sys2Proof.Machine.TraceText

open Sys2Proof.Config Sys2Proof.Machine.Trace

/-- Splits at every occurrence of a character. -/
def splitAt (c : Char) : List Char → List (List Char)
  | [] => [[]]
  | x :: xs =>
    if x = c then [] :: splitAt c xs
    else
      match splitAt c xs with
      | [] => [[x]]
      | h :: t => (x :: h) :: t

/-- The words of a line: what stands before `;`, split at blanks (R99). -/
def wordsOf (line : List Char) : List (List Char) :=
  let code := (line.takeWhile fun c => decide (c ≠ ';')).map fun c => if c = '\t' ∨ c = '\r' then ' ' else c
  (splitAt ' ' code).filter fun w => decide (w ≠ [])

/-- The value of a digit in a base. -/
def digit (base : Nat) (c : Char) : Option Nat :=
  let n := c.toNat
  let v := if 48 ≤ n ∧ n ≤ 57 then n - 48 else if 65 ≤ n ∧ n ≤ 70 then n - 55 else if 97 ≤ n ∧ n ≤ 102 then n - 87 else base
  if v < base then some v else none

/-- The number a list of digits continues. -/
def digits (base : Nat) : Nat → List Char → Option Nat
  | acc, [] => some acc
  | acc, c :: cs =>
    match digit base c with
    | some v => digits base (acc * base + v) cs
    | none => none

/-- A number: decimal, or hexadecimal with `0x` (R99). -/
def number : List Char → Option Nat
  | [] => none
  | '0' :: 'x' :: c :: cs => digits 16 0 (c :: cs)
  | c :: cs => digits 10 0 (c :: cs)

/-- A number below a bound. -/
def numberBelow (bound : Nat) (w : List Char) : Option Nat :=
  match number w with
  | some n => if n < bound then some n else none
  | none => none

/-- A reading, 0 to 1023. -/
def reading (w : List Char) : Option Reading := (numberBelow 1024 w).map (BitVec.ofNat 10)

/-- A mode of a MODE line: DIV, MULT, MAX_MULT, ONE or 0 to 3 (R99). -/
def modeWord (w : List Char) : Option (BitVec 2) :=
  if w = "DIV".toList then some 0 else if w = "MULT".toList then some 1 else if w = "MAX_MULT".toList then some 2
  else if w = "ONE".toList then some 3 else (numberBelow 4 w).map (BitVec.ofNat 2)

/-- A boot mode of a STRAP line: DIV, MULT, MAX_MULT or 0 to 3 (R99). -/
def bootWord (w : List Char) : Option (BitVec 2) := if w = "ONE".toList then none else modeWord w

/-- A strap of one bit. -/
def flagWord (w : List Char) : Option Bool := (numberBelow 2 w).map fun n => decide (n = 1)

/-- A `name=value` of a STRAP line (R99). -/
def strapSetting (p : Program) (w : List Char) : Option Program :=
  match splitAt '=' w with
  | [name, v] =>
    if name = "mode_boot".toList then (bootWord v).map fun b => { p with straps := { p.straps with modeBoot := b } }
    else if name = "GATE_ACTIVE_HIGH".toList then
      (flagWord v).map fun b => { p with straps := { p.straps with gateActiveHigh := b } }
    else if name = "RST_RESTARTS_AVG".toList then
      (flagWord v).map fun b => { p with straps := { p.straps with rstRestartsAvg := b } }
    else if name = "CT_INIT".toList then (numberBelow (2 ^ 32) v).map fun n => { p with ctInit := BitVec.ofNat 32 n }
    else if name = "RNG_SEED".toList then (numberBelow (2 ^ 16) v).map fun n => { p with rngSeed := BitVec.ofNat 16 n }
    else none
  | _ => none

/-- The settings of a STRAP line, in order. DESIGN CHOICE (log entry 16): a STRAP line with no setting sets nothing, and a
name set twice keeps its last value. -/
def strapSettings (p : Program) : List (List Char) → Option Program
  | [] => some p
  | w :: ws =>
    match strapSetting p w with
    | some q => strapSettings q ws
    | none => none

/-- A timed line after its `@t` (R99, R100). DESIGN CHOICE (log entry 16): a width of 0 in PULSE or RPULSE and a count of
0 in EVERY are accepted, and such a line expands to nothing. -/
def timedLine (t : Nat) : List (List Char) → Option Line
  | [] => none
  | k :: args =>
    if k = "CLK".toList ∧ args = [] then some (.clk t)
    else if k = "RST".toList ∧ args = [] then some (.rst t)
    else if k = "POLL".toList ∧ args = [] then some (.poll t)
    else if k = "CLICK1".toList ∧ args = [] then some (.click1 t)
    else if k = "CLICK2".toList ∧ args = [] then some (.click2 t)
    else
      match args with
      | [a] =>
        if k = "MODE".toList then (modeWord a).map (.mode t)
        else if k = "PULSE".toList then (number a).map (.pulse t)
        else if k = "RPULSE".toList then (number a).map (.rpulse t)
        else none
      | [a, b, c] =>
        if k = "EVERY".toList ∧ c = "CLK".toList then
          (number a).bind fun p => (number b).map fun n => .every t p n
        else none
      | [a, b, c, d] =>
        if k = "ADC".toList then
          (reading a).bind fun a0 => (reading b).bind fun a1 => (reading c).bind fun a2 =>
            (reading d).map fun a3 => .adc t a0 a1 a2 a3
        else none
      | _ => none

/-- One line of text added to a program and to whether it has ended with its RUN line (R99). STRAP lines come before the
first timed line, and there is one RUN line. -/
def addLine (st : Program × Bool) (line : List Char) : Option (Program × Bool) :=
  match wordsOf line with
  | [] => some st
  | w :: ws =>
    if w = "STRAP".toList then
      if st.1.lines = [] then (strapSettings st.1 ws).map fun p => (p, st.2) else none
    else if w = "RUN".toList then
      match ws, st.2 with
      | [n], false => (number n).map fun t => ({ st.1 with tEnd := t }, true)
      | _, _ => none
    else
      match w with
      | '@' :: t =>
        (number t).bind fun u => (timedLine u ws).map fun l => ({ st.1 with lines := st.1.lines ++ [l] }, st.2)
      | _ => none

/-- All lines of a text, in order. -/
def addLines : Program × Bool → List (List Char) → Option (Program × Bool)
  | st, [] => some st
  | st, l :: ls =>
    match addLine st l with
    | some st' => addLines st' ls
    | none => none

/-- The program of a text (R99). -/
def parse (text : String) : Option Program :=
  match addLines (Program.empty, false) (splitAt '\n' text.toList) with
  | some (p, true) => some p
  | some (_, false) => none
  | none => none

end Sys2Proof.Machine.TraceText
end

