-- ==== Sys2Proof/Tests/Slice0.lean ====
section
/-!
SUPPORT. The model's own tests. Expected values are the spec's: the words of R94, the vectors of 95_test_vectors.md,
the corner tables of R128, R144 and R164. At the end, a witness for every statement that has hypotheses.
-/

namespace Sys2Proof.Tests

open Sys2Proof Sys2Proof.Machine Sys2Proof.Config

set_option maxRecDepth 20000

/-! ## Ill-formed terms are refused -/

theorem test_tmrTick_one_refused : (Instr.tmrTick 3).wellFormed = false := by decide
theorem test_clkEdgeF0_one_refused : (Instr.clkEdgeF0 3).wellFormed = false := by decide
theorem test_clkEdgeF1_one_refused : (Instr.clkEdgeF1 3).wellFormed = false := by decide
theorem test_poll_one_refused : (Instr.poll 3).wellFormed = false := by decide

/-! ## Decoding, by the words of R94 -/

theorem test_decode_nop : decode 0b00000000 = .ok .nop := by decide
theorem test_decode_tmrTick : decode 0b00101000 = .ok (.tmrTick 1) := by decide
theorem test_decode_rstEdge : decode 0b01000000 = .ok .rstEdgeDiv ∧ decode 0b01001000 = .ok .rstEdgeMult ∧
    decode 0b01010000 = .ok .rstEdgeMaxmult := by decide
theorem test_decode_clkEdge_f0_f1 : decode 0b01101000 = .ok (.clkEdgeF0 1) ∧ decode 0b01100010 = .ok (.clkEdgeF1 0) := by
  decide
theorem test_decode_clkEdge_fn : decode 0b01100100 = .ok .clkEdgeDiv ∧ decode 0b01101100 = .ok .clkEdgeMult ∧
    decode 0b01110100 = .ok .clkEdgeMaxmult := by decide
theorem test_decode_modeSet : decode 0b10000000 = .ok .modeSetDiv ∧ decode 0b10001000 = .ok .modeSetMult ∧
    decode 0b10010000 = .ok .modeSetMaxmult ∧ decode 0b10011000 = .ok .modeSetIgn := by decide
theorem test_decode_poll : decode 0b10110000 = .ok (.poll 2) := by decide

/-- One word of each kind that R95 reserves. -/
theorem test_decode_reserved : decode 0xC0 = .error .reservedOp ∧ decode 0xE0 = .error .reservedOp ∧
    decode 0x01 = .error .reservedBit ∧ decode 0x66 = .error .reservedClass ∧
    decode 0x22 = .error .classOutsideClkEdge ∧ decode 0x78 = .error .reservedMode ∧
    decode 0x08 = .error .nopWithMode := by decide

theorem test_decodeBytes_empty_and_rest : decodeBytes [] = .error .noWord ∧
    decodeBytes [0x6C, 0x28] = .ok (.clkEdgeMult, [0x28]) := by decide

/-! ## Parameters -/

/-- V3, R211: CT_INIT 0 is refused. -/
theorem test_ctInit_zero_refused : CtInit.ofWord? 0 = none ∧ (CtInit.ofWord? 1).isSome = true := by decide

/-! ## The estimator, the selector, the generator -/

/-- R128, the rows "fifth edge", "quotient 0" and "`now` wrapped". -/
theorem test_peOnEdge_corners :
    (peOnEdge 500 { State.reset with lastTs := 400, sum := 400, cnt := 4 }).cycleTime = 100 ∧
    (peOnEdge 9 { State.reset with lastTs := 7, sum := 0, cnt := 4 }).cycleTime = 1 ∧
    (peOnEdge 0x100 { State.reset with lastTs := 0xFFFFFF00 }).sum = 512 := by decide

/-- R128, the row "largest window": the fifth delta of 2^32 - 1 on four of them. -/
theorem test_peOnEdge_largest_window :
    (peOnEdge 0xFFFFFFFF { State.reset with sum := 17179869180, cnt := 4 }).cycleTime = 4294967295 := by decide

/-- A state in a mode, right after reset, with the previous samples low, as the vectors of section 2.4 start. -/
def inMode (b : BitVec 2) : State :=
  { State.resetWith { Straps.default with modeBoot := b } Params.default [] 0 with prevClk := false, prevRst := false }

/-- Readings on the four channels. -/
def adc (a0 a1 a2 a3 : Reading) : Stim := { Stim.quiet with adc0 := a0, adc1 := a1, adc2 := a2, adc3 := a3 }

/-- The selection of a mode on two frequency readings from a generator state. -/
def selectAt (b : BitVec 2) (a2 a3 : Reading) (l : BitVec 16) : BitVec 5 × BitVec 16 :=
  fsSelect { inMode b with pins := adc 0 0 a2 a3, lfsr := l }

/-- R144, the boundary rows. -/
theorem test_fsSelect_corners : selectAt 1 170 0 7 = (0, 7) ∧ selectAt 1 342 341 7 = (2, 7) ∧
    selectAt 0 930 0 7 = (9, 7) ∧ selectAt 0 931 0 7 = (16, 7) ∧ selectAt 2 1023 0 0xACE1 = (2, 0x2ACE) ∧
    selectAt 2 342 700 0x2ACE = (3, 0x22AC) := by decide

/-- G1: one step from the seed. -/
theorem test_rngStep_from_seed : rngStep .fibonacci 0xACE1 = (true, 0x5670) := by decide

/-- R154: the second 4-bit and the tenth 7-bit draw from the seed. -/
theorem test_rngBits_reference : rngBits .fibonacci 4 0x2ACE = (7, 0x22AC) ∧
    rngBits .fibonacci 7 0x102B = (106, 0x4A20) := by decide

/-- G4, G5: the same call by rejection and by modulo. -/
theorem test_rngRange_methods :
    rngRange { Params.default with rangeMethod := .reject } 4 1 5 0xACE1 = (4, 0x722A) ∧
    rngRange Params.default 4 1 5 0xACE1 = (4, 0x2ACE) := by decide

/-- G6: boundary readings of the default chance map. -/
theorem test_chanceMap_boundaries : chanceMap .scaled 10 = 0 ∧ chanceMap .scaled 11 = 1 ∧ chanceMap .scaled 506 = 49 ∧
    chanceMap .scaled 507 = 50 ∧ chanceMap .scaled 1013 = 99 ∧ chanceMap .scaled 1014 = 100 := by decide

/-- R164: 680 and 690 stand on either side of the draw 67. -/
theorem test_pgResult_boundary : pgResult { inMode 1 with pins := adc 680 0 0 0 } = false ∧
    pgResult { inMode 1 with pins := adc 690 0 0 0 } = true := by decide

/-- R86: the record of V27 from its 46 bits. -/
theorem test_unpackStim_v27 : unpackStim 0x4B000FFEF =
    { adc 1023 0 300 0 with clockIn := true, resetIn := true, modeWe := true, modeIn := 1, pollReq := true } := by decide

/-! ## One step of every instruction (95_test_vectors.md, section 2.4) -/

/-- The state after one step on a stimulus. -/
def after (s : State) (stim : Stim) : Option State :=
  match step { s with inputs := [.tick stim] } with
  | .next t => some t
  | .fault _ => none
  | .refused _ => none

/-- V1: NOP while the timer counts down. -/
theorem test_nop_v1 :
    let s := { inMode 1 with now := 1000, st := .emit, out := true, tper := 50, tcnt := 7 }
    tickWords Stim.quiet s = [0x00] ∧
      (after s Stim.quiet).map (fun t => (t.tcnt, t.now, t.out, t.st)) = some (6, 1001, true, .emit) := by decide

/-- V19: a level held is no edge. -/
theorem test_nop_v19 :
    let s := { inMode 1 with now := 3000, prevClk := true }
    let stim := { adc 1023 0 1023 0 with clockIn := true }
    tickWords stim s = [0x00] ∧ (after s stim).map (fun t => (t.now, t.out, t.lfsr)) = some (3001, false, 0xACE1) := by
  decide

/-- V3: the fifth tick of a factor of 2 stops the timer, and toggles. -/
theorem test_tmrTick_v3 :
    let s := { inMode 1 with now := 1000, st := .emit, out := true, pcnt := 4, factor := 2, tper := 50, tcnt := 1 }
    tickWords Stim.quiet s = [0x28] ∧
      (after s Stim.quiet).map (fun t => (t.out, t.pcnt, t.st, t.tcnt)) = some (false, 5, .idle, 50) := by decide

/-- V4: a period of 0 fires in every tick. -/
theorem test_tmrTick_v4 :
    let s := { inMode 1 with now := 7, st := .emit, pcnt := 1, factor := 1, tcnt := 1 }
    (after s Stim.quiet).map (fun t => (t.out, t.pcnt, t.st, t.tcnt, t.tper)) = some (true, 2, .emit, 1, 0) := by decide

/-- V5: a reset edge in DIV mode cuts an emission. -/
theorem test_rstEdgeDiv_v5 :
    let s := { inMode 0 with now := 1000, st := .emit, out := true, pcnt := 2, tper := 50, tcnt := 30 }
    tickWords (unpackStim 0x2) s = [0x40] ∧
      (after s (unpackStim 0x2)).map (fun t => (t.out, t.pcnt, t.st, t.tcnt, t.prevRst)) =
        some (false, 0, .idle, 29, true) := by decide

/-- V6: a reset edge in MULT mode changes nothing. -/
theorem test_rstEdgeMult_v6 :
    let s := { inMode 1 with now := 1000, st := .emit, pcnt := 3, factor := 2, tper := 50, tcnt := 30 }
    tickWords (unpackStim 0x2) s = [0x48] ∧
      (after s (unpackStim 0x2)).map (fun t => (t.out, t.pcnt, t.st, t.tcnt, t.prevRst)) =
        some (false, 3, .emit, 29, true) := by decide

/-- V7: the strap restarts the window, in MAX_MULT mode too. -/
theorem test_rstEdgeMaxmult_v7 :
    let s := { inMode 2 with
      now := 1000, sum := 300, cnt := 3, lastTs := 900, straps := { Straps.default with rstRestartsAvg := true } }
    tickWords (unpackStim 0x2) s = [0x50] ∧
      (after s (unpackStim 0x2)).map (fun t => (t.sum, t.cnt, t.lastTs)) = some (0, 0, 900) := by decide

/-- V9: factor 0 in MULT mode: no gate draw although the chance reading is 1023. -/
theorem test_clkEdgeF0_v9 :
    let s := { inMode 1 with
      now := 1000, st := .emit, out := true, pcnt := 1, factor := 2, cycleTime := 1000, tper := 50, tcnt := 30 }
    tickWords (unpackStim 0xFFC1) s = [0x68] ∧
      (after s (unpackStim 0xFFC1)).map (fun t => ((t.out, t.pcnt, t.st, t.tcnt), t.factor, t.fdisp, t.sum, t.lfsr)) =
        some ((false, 1, .idle, 29), 0, .suppressed, 1000, 0xACE1) := by decide

/-- V17: factor 0 in MAX_MULT mode: the 4-bit draw is still made. -/
theorem test_clkEdgeF0_v17 :
    let s := { inMode 2 with now := 3000, out := true, cycleTime := 1000, sum := 2000, cnt := 2, lastTs := 2000 }
    let stim := { adc 0 0 0 100 with clockIn := true }
    tickWords stim s = [0x70] ∧
      (after s stim).map (fun t => ((t.out, t.factor, t.fdisp), t.sum, t.lfsr, t.chanceInd)) =
        some ((false, 0, .suppressed), 3000, 0x2ACE, true) := by decide

/-- V10: factor 1 in DIV mode, the fifth edge of a window. -/
theorem test_clkEdgeF1_v10 :
    let s := { inMode 0 with now := 500, cycleTime := 100, sum := 400, cnt := 4, lastTs := 400 }
    let stim := { adc 0 0 100 0 with clockIn := true }
    tickWords stim s = [0x62] ∧
      (after s stim).map (fun t => ((t.out, t.st, t.tper, t.tcnt), (t.sum, t.cnt, t.cycleTime), t.factor, t.fdisp)) =
        some ((true, .emit, 50, 50), (0, 0, 100), 1, .one) := by decide

/-- V11: the third edge of a factor of 3 with the gate true. -/
theorem test_clkEdgeDiv_v11 :
    let s := { inMode 0 with
      now := 3000, pcnt := 2, factor := 3, cycleTime := 1000, sum := 2000, cnt := 2, lastTs := 2000 }
    let stim := { adc 1023 0 300 0 with clockIn := true }
    tickWords stim s = [0x64] ∧
      (after s stim).map (fun t => ((t.out, t.pcnt, t.gate, t.chanceInd), t.factor, t.sum, t.cnt, t.lfsr)) =
        some ((true, 0, true, true), 3, 3000, 3, 0x4559) := by decide

/-- V13: the counter saturates. -/
theorem test_clkEdgeDiv_v13 :
    let s := { inMode 0 with now := 3000, pcnt := 255, factor := 16, cycleTime := 1000, lastTs := 2000 }
    (after s { adc 0 0 1023 0 with clockIn := true }).map (fun t => (t.pcnt, t.out, t.gate, t.factor, t.sum)) =
      some (255, false, false, 16, 1000) := by decide

/-- V14: gate true. -/
theorem test_clkEdgeMult_v14 :
    let s := { inMode 1 with now := 3000, cycleTime := 1000, sum := 2000, cnt := 2, lastTs := 2000 }
    tickWords (unpackStim 0x64000FFC1) s = [0x6C] ∧
      (after s (unpackStim 0x64000FFC1)).map (fun t => ((t.out, t.st, t.factor, t.gate), t.tper, t.tcnt, t.lfsr)) =
        some ((true, .emit, 2, true), 250, 250, 0x4559) := by decide

/-- V15: gate false. -/
theorem test_clkEdgeMult_v15 :
    let s := { inMode 1 with now := 3000, cycleTime := 1000, sum := 2000, cnt := 2, lastTs := 2000 }
    (after s { adc 0 0 0 1023 with clockIn := true }).map (fun t => (t.out, t.factor, t.gate, t.chanceInd, t.tper)) =
      some (true, 5, false, false, 500) := by decide

/-- V16. -/
theorem test_clkEdgeMaxmult_v16 :
    let s := { inMode 2 with now := 3000, cycleTime := 1000, sum := 2000, cnt := 2, lastTs := 2000 }
    tickWords (unpackStim 0x384320000001) s = [0x74] ∧
      (after s (unpackStim 0x384320000001)).map (fun t => ((t.out, t.factor, t.tper), t.gate, t.chanceInd, t.lfsr)) =
        some ((true, 4, 125), false, true, 0x2ACE) := by decide

/-- V20, V21, V22, and MODE_SET.MULT as in V27. -/
theorem test_modeSetMaxmult_v20 : (after (inMode 1) (unpackStim 0x14)).map (fun t => (t.mode, t.chanceInd)) =
    some (.maxMult, true) := by decide
theorem test_modeSetIgn_v21 : tickWords (unpackStim 0x1C) (inMode 0) = [0x98] ∧
    (after (inMode 0) (unpackStim 0x1C)).map (fun t => (t.mode, t.chanceInd)) = some (.div, false) := by decide
theorem test_modeSetDiv_v22 : (after (inMode 2) (unpackStim 0x4)).map (fun t => (t.mode, t.chanceInd)) =
    some (.div, true) := by decide
theorem test_modeSetMult : (after (inMode 0) (unpackStim 0xC)).map (fun t => t.mode) = some .mult := by decide

/-- V24: POLL in DIV mode. -/
theorem test_poll_v24 :
    let s := { inMode 0 with fdisp := .one }
    let stim := { adc 0 0 93 0 with pollReq := true }
    tickWords stim s = [0xA0] ∧ (after s stim).map (fun t => (t.fdisp, t.factor)) = some (.suppressed, 1) := by decide

/-- V25: POLL in MAX_MULT mode with bounds that differ: no draw. -/
theorem test_poll_v25 :
    let s := { inMode 2 with fdisp := .one }
    let stim := { adc 0 0 200 900 with pollReq := true }
    tickWords stim s = [0xB0] ∧ (after s stim).map (fun t => (t.fdisp, t.lfsr)) = some (.normal, 0xACE1) := by decide

/-- V27: all five requests in one tick. -/
def v27 : State :=
  { inMode 0 with
    now := 1000, st := .emit, out := true, tper := 50, tcnt := 1, cycleTime := 100, sum := 100, cnt := 1, lastTs := 900 }

theorem test_tick_v27_words : tickWords (unpackStim 0x4B000FFEF) v27 = [0x20, 0x40, 0x64, 0x88, 0xA8] := by decide

theorem test_tick_v27_scheduler : (after v27 (unpackStim 0x4B000FFEF)).map
    (fun t => ((t.out, t.pcnt, t.st), t.tcnt, t.factor, t.mode, t.now)) =
      some ((false, 1, .idle), 50, 3, .mult, 1001) := by decide

theorem test_tick_v27_others : (after v27 (unpackStim 0x4B000FFEF)).map
    (fun t => ((t.sum, t.cnt, t.gate), t.fdisp, t.lfsr)) = some ((200, 2, true), .one, 0x4559) := by decide

/-- R243: an assertion of `rst_n` in the middle of V27's state; 3 on `mode_boot` is read as MULT (R43). -/
theorem test_hardReset :
    (match step { v27 with inputs := [.hardReset { Straps.default with modeBoot := 3 }] } with
      | .next t => some ((t.now, t.st, t.tcnt), t.mode, t.cycleTime, t.prevClk)
      | .fault _ => none
      | .refused _ => none) = some ((0, .idle, 0), .mult, 500000, true) := by decide

/-- Every one of the 23 words, placed after reset, is what the next step performs. -/
theorem test_placed_words : ((List.range 256).all fun w =>
    (decodeTableWord 8 w).isNone || decide (Trace.stepWords (State.reset.withFetchWord 8 w) = [BitVec.ofNat 8 w])) = true := by
  decide

/-! ## The trace language -/

/-- A program in the text of R99 and R100, with a comment, a hexadecimal number and clicks. -/
def program : String :=
  "STRAP mode_boot=MAX_MULT CT_INIT=0x4B0 ; start\n@0 ADC 0 0 0 1023\n@1 CLK\n@2 CLICK1\n@3 POLL\nRUN 5"

theorem test_trace_listing : (match (TraceText.parse program).map Trace.listing with
    | some (.ok l) => Trace.listingText l
    | _ => []) = ["1: 0x74 CLK_EDGE.MAXMULT", "2: 0x80 MODE_SET.DIV", "3: 0xA0 POLL"] := by decide

/-- The two ticks without a request are in the full listing. -/
theorem test_trace_fullListing : (match (TraceText.parse program).map Trace.fullListing with
    | some (.ok l) => (Trace.listingText l).filter fun x => decide (x = "0: 0x00 NOP" ∨ x = "4: 0x00 NOP")
    | _ => []) = ["0: 0x00 NOP", "4: 0x00 NOP"] := by decide

/-- The text is that of a program that is refused as ill-formed, with no listing either (R99). -/
def illFormed (text : String) : Bool :=
  match (TraceText.parse text).map fun p => (Trace.run p, Trace.listing p) with
  | some (.refused .illFormedTrace, .error .illFormedTrace) => true
  | _ => false

/-- Lines that set one field of one tick differently are ill-formed, in a tick of the run and in one after it. -/
theorem test_trace_conflicts : illFormed "@3 MODE DIV\n@3 MODE MULT\nRUN 5" = true ∧
    illFormed "@7 MODE DIV\n@7 MODE MULT\nRUN 5" = true ∧ illFormed "@7 ADC 0 0 0 1\n@7 ADC 0 0 0 2\nRUN 5" = true ∧
    illFormed "@7 CLICK1\n@7 MODE MULT\nRUN 5" = true ∧ illFormed "@7 CLICK1\n@7 MODE DIV\nRUN 5" = false := by decide

/-- CT_INIT 0 is refused; a reserved word refuses a listing. -/
theorem test_trace_refusals :
    (match (TraceText.parse "STRAP CT_INIT=0\nRUN 1").map Trace.run with
      | some (.refused .illegalParameter) => true
      | _ => false) = true ∧
    (match Trace.decodeListing [(0, 0x00), (7, 0xFF)] with
      | .error e => decide (e = (7, .reservedBit))
      | .ok _ => false) = true := by decide

/-! ## Witnesses: states and operands that meet the hypotheses of the statements -/

/-- A state in a mode with readings sampled on its ports. -/
def sampled (b : BitVec 2) (x : Stim) : State := { inMode b with pins := x }

/-- A state whose next input is a tick. -/
def given (s : State) (x : Stim) : State := { s with inputs := [.tick x] }

theorem witness_DecodeOfEncodeIsIdentity : (Instr.tmrTick 2).wellFormed = true ∧ Instr.modeSetIgn.wellFormed = true := by
  decide

theorem witness_EncodeOfDecodeIsIdentity : decode 0x74 = .ok .clkEdgeMaxmult := by decide

theorem witness_StepRunsTheDecodedInstruction :
    let s := given (inMode 1) { adc 0 0 400 0 with clockIn := true }
    let x := { adc 0 0 400 0 with clockIn := true }
    nextInput s = .tick x ∧ tickOps x (takeInput s) = [.clkEdge] ∧
      decode (formWord .clkEdge (startTick x (takeInput s))) = .ok .clkEdgeMult := by decide

/-- For every statement whose one hypothesis is that the next input is a tick: StepFollowsTheStepRule,
EveryTickSamplesAndCounts, NoTickChangesStrapsOrParameters. -/
theorem witness_tick_given : nextInput (given (inMode 1) Stim.quiet) = .tick Stim.quiet := by decide

theorem witness_IdleTickMakesOnlyTheStepsOwnWrites :
    let s := given { inMode 1 with st := .emit, tcnt := 2 } Stim.quiet
    nextInput s = .tick Stim.quiet ∧ requests { takeInput s with pins := Stim.quiet } =
      { tmr := false, rst := false, clk := false, modeSet := false, poll := false } := by decide

theorem witness_WithoutAClockEdgeNothingIsSelected :
    (nextInput (given (inMode 1) Stim.quiet) = .tick Stim.quiet ∧ Stim.quiet.clockIn = false) ∧
    (nextInput (given { inMode 1 with prevClk := true } (clkStim 0)) = .tick (clkStim 0) ∧
      (clkStim 0).clockIn = true ∧ ({ inMode 1 with prevClk := true } : State).prevClk = true) := by decide

theorem witness_PlacedInstructionIsTheNextStep : (Instr.clkEdgeF1 2).wellFormed = true := by decide

theorem witness_ResetEdgeOutsideDivTouchesOnlyTheWindow :
    (Instr.rstEdgeMult = .rstEdgeMult ∨ Instr.rstEdgeMult = .rstEdgeMaxmult) ∧
    (Instr.rstEdgeMaxmult = .rstEdgeMult ∨ Instr.rstEdgeMaxmult = .rstEdgeMaxmult) := by decide

/-- The smallest and the largest factor above 1. -/
theorem witness_ClkEdgeMultStartsTheRatchet : 1 < (fsSelect (sampled 1 (adc 0 0 342 0))).1.toNat ∧
    1 < (fsSelect (sampled 1 (adc 0 0 1023 0))).1.toNat := by decide

theorem witness_ClkEdgeMaxmultSkipsTheGate : 1 < (fsSelect (sampled 2 (adc 0 0 342 342))).1.toNat := by decide

/-- The invariants hold with a window of four deltas and with an empty one, running and idle. -/
theorem witness_inv_window_full : State.Inv { inMode 1 with cnt := 4, sum := 17179869180 } :=
  ⟨by decide, by decide, by decide, by decide, by decide, by decide⟩

theorem witness_inv_emitting :
    State.Inv { inMode 1 with st := .emit, tcnt := 1, tper := 1, factor := 5, pcnt := 10 } :=
  ⟨by decide, by decide, by decide, by decide, by decide, by decide⟩

/-- The fifth delta of a window, and the first. -/
theorem witness_EstimatorTakesTheDelta :
    (isClkEdge .clkEdgeDiv = true ∧ State.Inv { inMode 1 with cnt := 4, sum := 17179869180 } ∧
      ({ inMode 1 with cnt := 4, sum := 17179869180 } : State).cnt.toNat = 4) ∧
    (isClkEdge (.clkEdgeF0 0) = true ∧ State.Inv (inMode 1) ∧ (inMode 1).cnt.toNat ≠ 4) :=
  ⟨⟨rfl, witness_inv_window_full, rfl⟩,
    ⟨rfl, ⟨by decide, by decide, by decide, by decide, by decide, by decide⟩, by decide⟩⟩

theorem witness_WindowOfFiveIsAveraged : (inMode 1).cnt = 0 ∧ (inMode 1).sum = 0 := by decide

theorem witness_ReadingThresholdsOfTheTables : 170 < 1024 ∧ 171 < 1024 ∧ 1023 < 1024 ∧ (multValue 170).toNat = 0 ∧
    (multValue 171).toNat = 1 ∧ (divValue 930).toNat = 9 ∧ (divValue 931).toNat = 16 := by decide

theorem witness_MultAndDivFactorFromTheLargerReading : isClkEdge .clkEdgeMult = true ∧ (inMode 1).mode = .mult ∧
    (inMode 0).mode = .div ∧ isClkEdge (.clkEdgeF1 1) = true ∧ consultsGate (.clkEdgeF1 1) = false := by decide

theorem witness_MaxMultFactorIsDrawn : (sampled 2 (adc 0 0 0 1023)).mode = .maxMult ∧
    (sampled 2 (adc 0 0 0 1023)).params.rangeMethod = .modulo := by decide

theorem witness_MaxMultFactorStaysInBounds : isClkEdge .clkEdgeMaxmult = true ∧ (inMode 2).mode = .maxMult := by decide

theorem witness_PreviewAgreesWithTheEdge : (inMode 0).mode ≠ .maxMult ∧ (sampled 2 (adc 0 0 200 300)).mode = .maxMult ∧
    fsPreview (sampled 2 (adc 0 0 200 300)) ≠ .fn ∧ fsPreview (sampled 2 (adc 0 0 100 0)) ≠ .fn := by decide

theorem witness_BoundedDrawStaysInBounds : (0 : Nat) ≤ 0 ∧ (0 : Nat) ≤ 99 := by decide

theorem witness_ModuloDraw : Params.default.rangeMethod = .modulo ∧ (0 : Nat) ≤ 5 ∧ 5 ≤ 5 ∧
    99 ≤ 99 := by decide

/-- The first draw is taken (k = 0), and the third after two rejected ones (k = 2; G4). -/
theorem witness_RejectingDrawTakesTheFirstBelowTheSpan :
    let p := { Params.default with rangeMethod := .reject }
    p.rangeMethod = .reject ∧
      (rngBits p.rngStep 4 (lfsrAfterDraws p.rngStep 4 0 0xACE1)).1 < 9 - 0 + 1 ∧
      (∀ j, j < 2 → 5 - 1 + 1 ≤ (rngBits p.rngStep 4 (lfsrAfterDraws p.rngStep 4 j 0xACE1)).1) ∧
      (rngBits p.rngStep 4 (lfsrAfterDraws p.rngStep 4 2 0xACE1)).1 < 5 - 1 + 1 := by decide

theorem witness_ChanceMapIsMonotoneFrom0To100 : (0 : Nat) ≤ 1023 ∧ 1023 < 1024 := by decide

theorem witness_GateAtTheEndsOfTheChanceRange :
    consultsGate .clkEdgeDiv = true ∧ (sampled 0 (adc 10 10 0 0)).params.chanceMap = .scaled ∧
      (sampled 0 (adc 10 10 0 0)).pins.adc0.toNat ≤ 10 ∧ (sampled 0 (adc 10 10 0 0)).pins.adc1.toNat ≤ 10 ∧
      consultsGate .clkEdgeMult = true ∧ 1014 ≤ (sampled 0 (adc 0 1014 0 0)).pins.adc1.toNat := by decide

/-- A drawing tick in MAX_MULT mode, and one in DIV mode with the smallest factor above 1. -/
theorem witness_GeneratorStepsPerTick :
    let x := { adc 0 0 187 0 with clockIn := true }
    nextInput (given (inMode 2) x) = .tick x ∧ (inMode 2).params.rangeMethod = .modulo ∧ x.clockIn = true ∧
      (inMode 2).prevClk = false ∧ nextInput (given (inMode 0) x) = .tick x ∧
      1 < (fsSelect { takeInput (given (inMode 0) x) with pins := x }).1.toNat := by decide

theorem witness_ChanceReadingsMatterOnlyToTheGate : consultsGate .clkEdgeMaxmult = false ∧
    consultsGate (.poll 1) = false := by decide

theorem witness_HardwareResetValues :
    nextInput { inMode 1 with inputs := [.hardReset { Straps.default with modeBoot := 2 }] } =
      .hardReset { Straps.default with modeBoot := 2 } := by decide

theorem witness_PulseLinesExpandToSingleTicks : (2 : Nat) ≤ 2 := by decide

theorem witness_ClickRules : (Trace.Controller.boot 0).mode = .div ∧ (Trace.Controller.boot 1).mode = .mult ∧
    (Trace.Controller.boot 2).mode = .maxMult ∧ (Trace.Controller.boot 2).mode ≠ .div := by decide

theorem witness_EveryStepKeepsTheInvariants :
    State.Inv (given (inMode 1) Stim.quiet) ∧
    step (given (inMode 1) Stim.quiet) = .next { inMode 1 with now := 1 } :=
  ⟨⟨by decide, by decide, by decide, by decide, by decide, by decide⟩, rfl⟩

/-- Each value on `mode_in`, and no request. -/
theorem witness_OnlyModeSetChangesTheMode :
    nextInput (given (inMode 1) (modeStim 2)) = .tick (modeStim 2) ∧ (modeStim 2).modeWe = true ∧
      (modeStim 2).modeIn = 2 ∧ nextInput (given (inMode 1) (modeStim 3)) = .tick (modeStim 3) := by decide

/-- The four clauses: factor 0, factor 1, the smallest factor above 1 in MULT mode and in DIV mode. -/
theorem witness_ClockEdgeHasTheFinalWord :
    let f (b : BitVec 2) (r : Reading) : Nat :=
      (fsSelect { takeInput (given (inMode b) (clkStim r)) with pins := clkStim r }).1.toNat
    nextInput (given (inMode 1) (clkStim 170)) = .tick (clkStim 170) ∧ (clkStim 170).clockIn = true ∧
      (given (inMode 1) (clkStim 170)).prevClk = false ∧ f 1 170 = 0 ∧ f 1 171 = 1 ∧ f 1 341 = 1 ∧ 1 < f 1 342 ∧
      (inMode 1).mode ≠ .div ∧ 1 < f 0 187 ∧ (inMode 0).mode = .div := by decide

theorem witness_ResetThenClockEdgeCountsAsOne :
    let x := { clkStim 187 with resetIn := true }
    nextInput (given (inMode 0) x) = .tick x ∧ x.clockIn = true ∧ (given (inMode 0) x).prevClk = false ∧
      x.resetIn = true ∧ (given (inMode 0) x).prevRst = false ∧ (given (inMode 0) x).mode = .div ∧
      1 < (fsSelect { takeInput (given (inMode 0) x) with pins := x }).1.toNat := by decide

theorem witness_NoClockLeavesTheOutputHeld :
    let x := { Stim.quiet with resetIn := true }
    nextInput (given (inMode 0) x) = .tick x ∧ (given (inMode 0) x).st = .idle ∧ x.clockIn = false ∧
      (given (inMode 0) x).prevRst = false ∧ (given (inMode 0) x).mode = .div := by decide

/-- A clock level held high, and a reset edge outside DIV mode. -/
theorem witness_EmissionIgnoresModeReadingsAndPoll :
    leavesEmission (modeStim 0) { inMode 1 with prevClk := true } = true ∧
    leavesEmission { adc 1 2 3 4 with pollReq := true, clockIn := true, resetIn := true }
      { inMode 1 with prevClk := true } = true := by decide

/-- A running emission of factor 1 and period 1, over three ticks: k from 1 to 3. The clock level of the starting edge is
still high in the first, a reset edge in MULT mode comes in the second, and a mode change too. -/
theorem witness_EmissionTimeline :
    let s := { inMode 1 with
      prevClk := true, st := .emit, out := true, tper := 1, tcnt := 1, factor := 1,
      inputs := [.tick { Stim.quiet with clockIn := true }, .tick { modeStim 0 with resetIn := true }, .tick Stim.quiet] }
    s.st = .emit ∧ s.pcnt = 0 ∧ s.out = true ∧ s.tcnt.toNat = max 1 s.tper.toNat ∧ 1 ≤ s.factor.toNat ∧
      3 ≤ 2 * s.factor.toNat + 1 ∧ undisturbed (3 * max 1 s.tper.toNat) s = true := by decide

theorem witness_DividerSequence :
    let s := sampled 0 (adc 1014 0 187 0)
    s.mode = .div ∧ s.pcnt = 0 ∧ 1 < (fsSelect s).1.toNat ∧ 100 ≤ chanceLevel s := by decide

/-- Two clock edges with factor 2, a tick with the clock low and one with it held high between and after them. -/
theorem witness_DividerSequenceOverTicks :
    let x := { adc 1014 0 187 0 with clockIn := true }
    let s := { inMode 0 with inputs := [.tick x, .tick { modeStim 3 with pollReq := true }, .tick x, .tick (clkStim 0)] }
    s.mode = .div ∧ s.st = .idle ∧ s.pcnt = 0 ∧ 1 < 2 ∧ dividerEdges 2 4 s = some 2 := by decide

end Sys2Proof.Tests
end

section
/-!
PROOF. The instruction a dispatched word is performed as (R90 to R92), what a whole tick keeps if each of its operations
keeps it (R171), and the registers only a clock edge writes (R50).
-/

namespace Sys2Proof.Machine

open Sys2Proof.Config

/-! The word the dispatcher forms -/

/-- The class field of a CLK_EDGE word and the mode pick the variant, the factor's tests first (R92, R176). -/
theorem decode_clkEdgeWord (f : BitVec 5) (m : Mode) :
    decode (opw Op.clkEdge.bits m.bits (factorClass f).bits) = .ok (clkVariant f m) := by
  unfold factorClass clkVariant
  split
  · cases m <;> rfl
  · split <;> cases m <;> rfl

theorem decode_modeSetWord (b : BitVec 2) : decode (opw Op.modeSet.bits b 0) = .ok (modeSetVariant b) := by
  have hb : b = 0 ∨ b = 1 ∨ b = 2 ∨ b = 3 := by revert b; decide
  rcases hb with rfl | rfl | rfl | rfl <;> rfl

/-- CLK_EDGE's word carries the class of the factor the selector answers in the same state (R92). -/
theorem formWord_clkEdge (s : State) :
    formWord .clkEdge s = opw Op.clkEdge.bits s.mode.bits (factorClass (fsSelect s).1).bits := by
  have hf : (clkCommon s).factor = (fsSelect s).1 := by rw [clkCommon_eq]
  rw [formWord, classField, hf]
  rfl

/-- The dispatcher never forms a reserved word (R95): its word decodes to the instruction the operation, the mode and
the selected factor call for. -/
theorem decode_formWord (op : Op) (s : State) : decode (formWord op s) = .ok (dispatched op s) := by
  cases op with
  | nop => exact (by decide : decode (opw Op.nop.bits 0 0) = .ok .nop)
  | clkEdge => rw [formWord_clkEdge, decode_clkEdgeWord]; rfl
  | modeSet => exact decode_modeSetWord s.pins.modeIn
  | tmrTick | rstEdge | poll =>
    simp only [formWord, modeField, classField, dispatched]
    cases s.mode <;> rfl

theorem performWord_formWord (op : Op) (s : State) :
    performWord (formWord op s) s = exec (dispatched op s) s :=
  performWord_of_decode (decode_formWord op s) s

/-- An operation is performed as a variant of CLK_EDGE only if it is CLK_EDGE (R90). -/
theorem isClkEdge_dispatched {op : Op} (h : op ≠ .clkEdge) (s : State) : isClkEdge (dispatched op s) = false := by
  cases op with
  | clkEdge => exact absurd rfl h
  | nop | tmrTick | poll => rfl
  | rstEdge => rw [dispatched]; cases s.mode <;> rfl
  | modeSet => rw [dispatched, modeSetVariant]; split <;> rfl

/-! The operations of one tick -/

/-- A sequence of operations completes, and keeps what each operation in it keeps (R171, R210). -/
theorem performAll_keeps (P : State → Prop) {ops : List Op}
    (hP : ∀ op ∈ ops, ∀ s t, P s → exec (dispatched op s) s = .next t → P t) (s : State) (h : P s) :
    ∃ t, performAll ops s = .next t ∧ P t := by
  induction ops generalizing s with
  | nil => exact ⟨s, rfl, h⟩
  | cons op rest ih =>
    obtain ⟨t, e, -⟩ := exec_completes (dispatched op s) s
    have ht : P t := hP op List.mem_cons_self s t h e
    obtain ⟨u, e', hu⟩ := ih (fun o ho => hP o (List.mem_cons_of_mem op ho)) t ht
    exact ⟨u, by rw [performAll, performWord_formWord, e, andThen_next, e'], hu⟩

/-- A tick completes, and up to its end keeps what each of its operations keeps (R170). -/
theorem tick_keeps (P : State → Prop) (stim : Stim) (s : State)
    (hP : ∀ op ∈ tickOps stim s, ∀ u t, P u → exec (dispatched op u) u = .next t → P t)
    (h : P (startTick stim s)) : ∃ t, tick stim s = .next (endTick t) ∧ P t := by
  obtain ⟨t, e, ht⟩ := performAll_keeps P hP _ h
  exact ⟨t, by rw [tick, e, andThen_next], ht⟩

theorem clkEdge_mem_requestedOps (r : Requests) : Op.clkEdge ∈ requestedOps r ↔ r.clk = true := by
  obtain ⟨tmr, rst, clk, modeSet, poll⟩ := r
  revert tmr rst clk modeSet poll
  decide

/-- CLK_EDGE is among a tick's operations exactly if `clock_in` rises (R87, R88). -/
theorem clkEdge_mem_tickOps (stim : Stim) (s : State) :
    Op.clkEdge ∈ tickOps stim s ↔ stim.clockIn = true ∧ s.prevClk = false := by
  rw [tickOps, clkEdge_mem_requestedOps]
  exact risingEdge_eq_true stim.clockIn s.prevClk

/-! The registers only CLK_EDGE writes -/

/-- The registers of which, apart from reset, CLK_EDGE is the only writer (R50). -/
structure SameSelection (s t : State) : Prop where
  cycleTime : t.cycleTime = s.cycleTime
  lastTs : t.lastTs = s.lastTs
  factor : t.factor = s.factor
  gate : t.gate = s.gate
  lfsr : t.lfsr = s.lfsr
  tper : t.tper = s.tper

theorem SameSelection.refl (s : State) : SameSelection s s := ⟨rfl, rfl, rfl, rfl, rfl, rfl⟩

theorem SameSelection.trans {s t u : State} (h : SameSelection s t) (k : SameSelection t u) : SameSelection s u :=
  ⟨k.cycleTime.trans h.cycleTime, k.lastTs.trans h.lastTs, k.factor.trans h.factor, k.gate.trans h.gate,
    k.lfsr.trans h.lfsr, k.tper.trans h.tper⟩

theorem exec_keeps_selection {i : Instr} (hi : isClkEdge i = false) {s t : State} (h : exec i s = .next t) :
    SameSelection s t := by
  cases i with
  | clkEdgeF0 | clkEdgeF1 | clkEdgeDiv | clkEdgeMult | clkEdgeMaxmult => cases hi
  | rstEdgeDiv | rstEdgeMult | rstEdgeMaxmult => cases h; constructor <;> simp
  | nop | modeSetIgn => cases h; exact .refl s
  | tmrTick | modeSetDiv | modeSetMult | modeSetMaxmult | poll => cases h; constructor <;> rfl

/-- Neither the start of a tick nor its end writes one of them (R170), nor any operation but CLK_EDGE. -/
theorem tick_keeps_selection {stim : Stim} {s : State} (h : Op.clkEdge ∉ tickOps stim s) :
    ∃ t, tick stim s = .next t ∧ SameSelection s t := by
  have start : SameSelection s (startTick stim s) := by constructor <;> simp
  have ops : ∀ op ∈ tickOps stim s, ∀ u t, SameSelection s u → exec (dispatched op u) u = .next t →
      SameSelection s t := by
    intro op hop u t hu e
    have hne : op ≠ .clkEdge := fun eq => h (eq ▸ hop)
    exact hu.trans (exec_keeps_selection (isClkEdge_dispatched hne u) e)
  obtain ⟨t, e, ht⟩ := tick_keeps (SameSelection s) stim s ops start
  exact ⟨endTick t, e, ht.trans ⟨rfl, rfl, rfl, rfl, rfl, rfl⟩⟩

/-- Settles O13: without a rising edge CLK_EDGE is not among the tick's operations, and no other operation writes the
selection. -/
theorem withoutAClockEdgeNothingIsSelected : Obligations.WithoutAClockEdgeNothingIsSelected := by
  intro s stim hstim hedge
  have hno : Op.clkEdge ∉ tickOps stim (takeInput s) := by
    rw [clkEdge_mem_tickOps, takeInput_prevClk]
    rintro ⟨hc, hp⟩
    simp [hc, hp] at hedge
  have input : SameSelection s (takeInput s) := by constructor <;> simp
  obtain ⟨t, e, ht⟩ := tick_keeps_selection hno
  obtain ⟨hct, hts, hf, hg, hl, hp⟩ := input.trans ht
  exact ⟨t, (step_tick hstim).trans e, hct, hts, hf, hg, hl, hp⟩

end Sys2Proof.Machine
end

section
/-!
PROOF. Reset and ports (R45, R49), what every tick does to the step rule's own fields and to the mode (R21, R22, R37,
R41, R42), and the invariants of the block (R48).
-/

namespace Sys2Proof.Machine

open Sys2Proof.Config

/-! The output ports -/

/-- The polarity strap at 0 inverts the output (R33, R41). -/
theorem gateOut_eq (s : State) : gateOut s = if s.straps.gateActiveHigh = true then s.out else !s.out := by
  unfold gateOut
  cases s.straps.gateActiveHigh <;> simp

/-- Settles O46: each port shows its register, and only `gate_out` depends on a strap. -/
theorem outputPorts : Obligations.OutputPorts := by
  intro s
  refine ⟨gateOut_eq s, rfl, ?_, ?_, ?_⟩
  · unfold fdispOut; cases s.fdisp <;> rfl
  · unfold modeSig; cases s.mode <;> rfl
  · unfold emitting; cases s.st <;> rfl

/-! The hardware reset -/

/-- The boot strap names DIV and MAX_MULT by their codes; the two others are read as MULT (R43). -/
theorem ofBoot_eq (b : BitVec 2) :
    Mode.ofBoot b = if b = 0 then .div else if b = 2 then .maxMult else .mult := by
  revert b; decide

/-- The chance indicator is on after reset exactly if the boot mode is MAX_MULT (R49). -/
theorem ofBoot_eq_maxMult_iff (b : BitVec 2) : Mode.ofBoot b = .maxMult ↔ b = 2 := by
  revert b; decide

/-- Settles O44: a step on a hardware reset is `State.resetWith`, whose fields are the values of R49. -/
theorem hardwareResetValues : Obligations.HardwareResetValues := by
  intro s straps h
  refine ⟨_, step_hardReset h, rfl, rfl, rfl, rfl, rfl, rfl, ?_, rfl, rfl, rfl, rfl, rfl, rfl, rfl, ?_, rfl,
    ofBoot_eq _, ?_, rfl, takeInput_params s⟩
  · simp [hardReset, State.resetWith]
  · simp [hardReset, State.resetWith]
  · simp [hardReset, State.resetWith, ofBoot_eq_maxMult_iff]

/-- Settles O45: `State.reset` is a closed state, and each clause computes. -/
theorem resetStateHoldsTheDefaults : Obligations.ResetStateHoldsTheDefaults := by
  unfold Obligations.ResetStateHoldsTheDefaults
  decide

/-- The reset values have the invariants: an empty window, a nonzero CT_INIT, factor 1, the timer stopped and the seed
in the generator (R49). -/
theorem resetWith_inv (straps : Straps) (params : Params) (inputs : List Input) (n : Nat) :
    (State.resetWith straps params inputs n).Inv where
  cnt_le := by simp [State.resetWith]
  sum_le := by simp [State.resetWith]
  cycleTime_pos := by
    have hne := params.ctInit.nonzero
    simp only [State.resetWith]
    bv_omega
  factor_legal := by simp [State.resetWith]
  emitting := fun hst => nomatch hst
  lfsr_nonzero := fun _ hseed => hseed

/-- Settles O49: `State.resetWith` has the invariants for any of its arguments. -/
theorem invariantsHoldAfterReset : Obligations.InvariantsHoldAfterReset := resetWith_inv

/-! What a tick does to the step rule's own fields -/

/-- A tick completes; up to its end the operations leave the step rule's own fields as the start of the tick set them
(R50, R170). -/
theorem tick_completes (stim : Stim) (s : State) :
    ∃ u, performAll (tickOps stim s) (startTick stim s) = .next u ∧ tick stim s = .next (endTick u) ∧
      SameSurroundings (startTick stim s) u := by
  obtain ⟨u, e, hu⟩ := performAll_keeps (SameSurroundings (startTick stim s)) (ops := tickOps stim s)
    (fun _ _ _ _ h k => h.trans (exec_surroundings k)) _ (.refl _)
  exact ⟨u, e, by rw [tick, e, andThen_next], hu⟩

/-- Settles O12: no operation writes `pins` or `now`, and the end of the tick takes the previous samples and the new
`now` from them. -/
theorem everyTickSamplesAndCounts : Obligations.EveryTickSamplesAndCounts := by
  intro s stim h
  obtain ⟨u, -, e, hu⟩ := tick_completes stim (takeInput s)
  refine ⟨endTick u, (step_tick h).trans e, ?_, ?_, ?_⟩
  · simp [hu.pins]
  · simp [hu.pins]
  · simp [hu.now, BitVec.toNat_add]

/-- Settles O52: no operation writes the straps or the parameters, and neither the start nor the end of a tick does. -/
theorem noTickChangesStrapsOrParameters : Obligations.NoTickChangesStrapsOrParameters := by
  intro s stim h
  obtain ⟨u, -, e, hu⟩ := tick_completes stim (takeInput s)
  exact ⟨endTick u, (step_tick h).trans e, by simp [hu.straps], by simp [hu.params]⟩

/-! The mode -/

/-- The mode an instruction asks for: the variants of MODE_SET but IGN have one (R188, R189). -/
def modeAsked : Instr → Option Mode
  | .modeSetDiv => some .div
  | .modeSetMult => some .mult
  | .modeSetMaxmult => some .maxMult
  | .modeSetIgn | .nop | .tmrTick _ | .rstEdgeDiv | .rstEdgeMult | .rstEdgeMaxmult | .clkEdgeF0 _ | .clkEdgeF1 _
  | .clkEdgeDiv | .clkEdgeMult | .clkEdgeMaxmult | .poll _ => none

/-- An instruction leaves the mode it asks for, or the old one (R37). -/
theorem exec_mode {i : Instr} {s t : State} (h : exec i s = .next t) : t.mode = (modeAsked i).getD s.mode := by
  cases i with
  | clkEdgeDiv => cases (execClkEdgeDiv_eq s).symm.trans h; simp [modeAsked]
  | clkEdgeF0 | clkEdgeF1 | clkEdgeMult | clkEdgeMaxmult | rstEdgeDiv | rstEdgeMult | rstEdgeMaxmult =>
    cases h; simp [modeAsked]
  | nop | tmrTick | modeSetDiv | modeSetMult | modeSetMaxmult | modeSetIgn | poll => cases h; rfl

/-- The dispatcher asks for a mode only by MODE_SET, and then for the one `mode_in` codes (R91). -/
theorem modeAsked_dispatched (op : Op) (s : State) :
    modeAsked (dispatched op s) = if op = .modeSet then Mode.ofBits? s.pins.modeIn else none := by
  cases op with
  | nop | tmrTick | poll => rfl
  | rstEdge => rw [dispatched]; cases s.mode <;> rfl
  | clkEdge =>
    simp only [dispatched, clkVariant]
    split
    · rfl
    · split
      · rfl
      · cases s.mode <;> rfl
  | modeSet =>
    rw [dispatched, modeSetVariant]
    rcases Mode.ofBits? s.pins.modeIn with _ | _ | _ | _ <;> rfl

/-- A sequence of operations leaves the mode coded on `mode_in` if MODE_SET is one of them and the code is a mode, and
the old one otherwise: no operation changes `mode_in`, so a second MODE_SET would set the same mode. -/
theorem performAll_mode {ops : List Op} {s t : State} (h : performAll ops s = .next t) :
    t.mode = (if Op.modeSet ∈ ops then Mode.ofBits? s.pins.modeIn else none).getD s.mode := by
  induction ops generalizing s with
  | nil => cases h; rfl
  | cons op rest ih =>
    rw [performAll, performWord_formWord] at h
    obtain ⟨u, e, hrest⟩ := andThen_eq_next h
    have hmode : u.mode = (if op = .modeSet then Mode.ofBits? s.pins.modeIn else none).getD s.mode := by
      rw [exec_mode e, modeAsked_dispatched]
    rw [ih hrest, (exec_surroundings e).pins, hmode]
    by_cases hop : op = .modeSet
    · subst hop
      cases Mode.ofBits? s.pins.modeIn with
      | none => simp
      | some m => split <;> simp
    · simp [hop, Ne.symm hop]

theorem modeSet_mem_requestedOps (r : Requests) : Op.modeSet ∈ requestedOps r ↔ r.modeSet = true := by
  obtain ⟨tmr, rst, clk, modeSet, poll⟩ := r
  revert tmr rst clk modeSet poll
  decide

/-- MODE_SET is among a tick's operations exactly if `mode_we` is high (R88). -/
theorem modeSet_mem_tickOps (stim : Stim) (s : State) : Op.modeSet ∈ tickOps stim s ↔ stim.modeWe = true :=
  modeSet_mem_requestedOps _

/-- Settles O51: MODE_SET is among the tick's operations exactly if requested, and no other operation writes the
mode. -/
theorem onlyModeSetChangesTheMode : Obligations.OnlyModeSetChangesTheMode := by
  intro s stim h
  obtain ⟨u, hu, e, -⟩ := tick_completes stim (takeInput s)
  refine ⟨endTick u, (step_tick h).trans e, ?_⟩
  have hmode := performAll_mode hu
  simp only [modeSet_mem_tickOps, startTick_pins, startTick_mode, takeInput_mode] at hmode
  rw [endTick_mode, hmode]
  cases stim.modeWe with
  | false => simp
  | true =>
    simp only [Mode.ofBits?, if_true, true_and]
    split_ifs <;> rfl

/-! The invariants: the generator and the selector -/

/-- A bounded draw keeps the default generator's state nonzero, by either method (R152 (b), R48 (i)). -/
theorem rngRange_ne_zero {p : Params} (hp : p.rngStep = .fibonacci) (n lo hi : Nat) {l : BitVec 16} (h : l ≠ 0) :
    (rngRange p n lo hi l).2 ≠ 0 := by
  refine rngRange_keeps p (· ≠ 0) (fun l hl => ?_) n lo hi l h
  rw [hp]
  exact rngStep_fibonacci_ne_zero l hl

/-- A bounded draw is at most its upper bound (R157 (a)). -/
theorem rngRange_le (p : Params) (n : Nat) {lo hi : Nat} (h : lo ≤ hi) (l : BitVec 16) :
    (rngRange p n lo hi l).1 ≤ hi := by
  have hlt := drawBelow_lt p n lo hi l
  simp only [rngRange]
  omega

theorem fsSelect_lfsr_ne_zero {s : State} (hp : s.params.rngStep = .fibonacci) (h : s.lfsr ≠ 0) :
    (fsSelect s).2 ≠ 0 := by
  unfold fsSelect
  split
  · exact h
  · exact h
  · exact rngRange_ne_zero hp _ _ _ h

/-- Outside DIV mode the factor comes from the MULT table, drawn or not (R137, R140). -/
theorem fsSelect_le_five {s : State} (h : s.mode ≠ .div) : (fsSelect s).1.toNat ≤ 5 := by
  unfold fsSelect
  split
  · exact multValue_le _
  · exact absurd ‹_› h
  · have hlo : (maxMultBounds s).1 ≤ (maxMultBounds s).2 := by
      simp only [maxMultBounds]
      omega
    have hhi : (maxMultBounds s).2 ≤ 5 := by
      simp only [maxMultBounds]
      exact max_le (multValue_le _) (multValue_le _)
    calc (BitVec.ofNat 5 _).toNat ≤ _ := by rw [BitVec.toNat_ofNat]; exact Nat.mod_le _ _
      _ ≤ (maxMultBounds s).2 := rngRange_le _ _ hlo _
      _ ≤ 5 := hhi

/-- Every selected factor is a value of one of the two tables (R48 (d)). -/
theorem fsSelect_legal (s : State) : (fsSelect s).1.toNat ∈ [0, 1, 2, 3, 4, 5, 6, 7, 8, 9, 16] := by
  by_cases h : s.mode = .div
  · rw [fsSelect, h]
    exact divValue_mem _
  · have hle := fsSelect_le_five h
    generalize (fsSelect s).1.toNat = f at hle
    simp only [List.mem_cons, List.not_mem_nil, or_false]
    omega

/-! The invariants: the shared operations -/

/-- The estimator keeps the window in range: the fifth delta closes it with an average that fits the register, any
other adds at most 2^32 - 1 to the sum (R121, R122). -/
theorem peOnEdge_keeps_inv (t : Word) {s : State} (h : s.Inv) : (peOnEdge t s).Inv := by
  have hcnt := h.cnt_le
  have hsum := h.sum_le
  have hdelta := (peDelta t s).isLt
  by_cases hfull : s.cnt.toNat = 4
  · rw [peOnEdge_closes t s hfull]
    refine { h with cnt_le := by simp, sum_le := by simp, cycleTime_pos := ?_ }
    rw [hfull] at hsum
    rw [BitVec.toNat_ofNat, Nat.mod_eq_of_lt (by omega)]
    exact le_max_left _ _
  · rw [peOnEdge_adds t s hfull]
    have hcnt' : (BitVec.ofNat 3 (s.cnt.toNat + 1)).toNat = s.cnt.toNat + 1 := by
      rw [BitVec.toNat_ofNat, Nat.mod_eq_of_lt (by omega)]
    have hsum' : (BitVec.ofNat 35 (s.sum.toNat + (peDelta t s).toNat)).toNat =
        s.sum.toNat + (peDelta t s).toNat := by
      rw [BitVec.toNat_ofNat, Nat.mod_eq_of_lt (by omega)]
    exact { h with cnt_le := by rw [hcnt']; omega, sum_le := by rw [hsum', hcnt']; omega }

theorem timerStop_keeps_inv {s : State} (h : s.Inv) : (timerStop s).Inv := { h with emitting := fun hst => nomatch hst }

/-- A clock edge's common part leaves the timer stopped, so only the window, the factor and the generator count. -/
theorem clkCommon_keeps_inv {s : State} (h : s.Inv) : (clkCommon s).Inv := by
  have hpe := peOnEdge_keeps_inv s.now (timerStop_keeps_inv h)
  exact { hpe with
    factor_legal := fsSelect_legal _
    emitting := fun hst => by simp at hst
    lfsr_nonzero := fun hfib hseed => fsSelect_lfsr_ne_zero hfib (hpe.lfsr_nonzero hfib hseed) }

theorem rstCommon_keeps_inv {s : State} (h : s.Inv) : (rstCommon s).Inv := by
  unfold rstCommon
  split
  · exact { h with cnt_le := by simp, sum_le := by simp }
  · exact h

theorem pgDecide_keeps_inv {s : State} (h : s.Inv) : (pgDecide s).Inv :=
  { h with lfsr_nonzero := fun hfib hseed => rngRange_ne_zero hfib _ _ _ (h.lfsr_nonzero hfib hseed) }

/-- An emission starts with at least one tick to go and a pulse count of 0; its factor must be one of 1 to 5 (R48 (g),
(h), R173). -/
theorem timerStart_keeps_inv (p : Word) {s : State} (h : s.Inv) (hpos : 1 ≤ s.factor.toNat)
    (hle : s.factor.toNat ≤ 5) (hpcnt : s.pcnt = 0) : (timerStart p s).Inv :=
  { h with emitting := fun _ => ⟨by simp [atLeastOne_toNat], hpos, hle, by simp [hpcnt]⟩ }

/-- The countdown of a running timer ends at 1 or above: it reloads at 1 and below (R172). -/
theorem startTick_keeps_inv (stim : Stim) {s : State} (h : s.Inv) : (startTick stim s).Inv := by
  unfold startTick countTimer
  split
  · exact { h with }
  · rename_i hst
    obtain ⟨-, hfactor⟩ := h.emitting hst
    refine { h with emitting := fun _ => ⟨?_, hfactor⟩ }
    dsimp only
    split
    · simp [atLeastOne_toNat]
    · rename_i hfire
      have hlow : ¬ s.tcnt.toNat ≤ 1 := fun hle => hfire ((timerFires_iff _).mpr ⟨hst, hle⟩)
      bv_omega

/-! The invariants: the operations -/

/-- The stop test is on the new count, so an emission that goes on has not exceeded twice its factor (R183). -/
theorem execTmrTick_keeps_inv (m : BitVec 2) {s t : State} (h : s.Inv) (e : execTmrTick m s = .next t) : t.Inv := by
  cases e
  refine { h with emitting := fun hst => ?_ }
  dsimp only at hst ⊢
  split at hst
  · cases hst
  · rename_i hstop
    obtain ⟨htcnt, hpos, hle, -⟩ := h.emitting hst
    exact ⟨htcnt, hpos, hle, by simpa [pcntExceeds] using hstop⟩

theorem rstVariant_keeps_inv (m : Mode) {s t : State} (h : s.Inv) (e : exec (rstVariant m) s = .next t) : t.Inv := by
  have hc := rstCommon_keeps_inv h
  cases m with
  | div => cases e; exact { timerStop_keeps_inv hc with emitting := fun hst => nomatch hst }
  | mult | maxMult => cases e; exact hc

theorem execClkEdgeDiv_keeps_inv {s t : State} (h : s.Inv) (e : execClkEdgeDiv s = .next t) : t.Inv := by
  have hc : ({ clkCommon s with fdisp := .normal, pcnt := pcntSucc s.pcnt } : State).Inv :=
    { clkCommon_keeps_inv h with emitting := fun hst => by simp at hst }
  cases (execClkEdgeDiv_eq s).symm.trans e
  exact { pgDecide_keeps_inv hc with emitting := fun hst => by simp at hst }

/-- CLK_EDGE as the dispatcher performs it. Only F1, MULT and MAXMULT start the timer: F1 with the factor 1, the two
others with a factor above 1 selected outside DIV mode, hence from the MULT table (R176). -/
theorem clkVariant_keeps_inv {s t : State} (h : s.Inv)
    (e : exec (clkVariant (fsSelect s).1 s.mode) s = .next t) : t.Inv := by
  have hc := clkCommon_keeps_inv h
  have hfactor : (clkCommon s).factor = (fsSelect s).1 := by rw [clkCommon_eq]
  have hstart (d : Display) : ({ clkCommon s with pcnt := 0, out := true, fdisp := d } : State).Inv :=
    { hc with emitting := fun hst => by simp at hst }
  unfold clkVariant at e
  split at e
  · cases e
    exact { hc with emitting := fun hst => by simp at hst }
  · rename_i hne0
    have hpos : 1 ≤ (clkCommon s).factor.toNat := by
      rw [hfactor]
      bv_omega
    split at e
    · rename_i h1
      cases e
      have hle : (clkCommon s).factor.toNat ≤ 5 := by rw [hfactor, h1]; decide
      exact { timerStart_keeps_inv _ (hstart .one) hpos hle rfl with }
    · have hle (hm : s.mode ≠ .div) : (clkCommon s).factor.toNat ≤ 5 := by rw [hfactor]; exact fsSelect_le_five hm
      cases hm : s.mode with
      | div => rw [hm] at e; exact execClkEdgeDiv_keeps_inv h e
      | mult =>
        rw [hm] at e
        cases e
        exact timerStart_keeps_inv _ (pgDecide_keeps_inv (hstart .normal)) hpos (hle (by simp [hm])) rfl
      | maxMult =>
        rw [hm] at e
        cases e
        exact timerStart_keeps_inv _ (hstart .normal) hpos (hle (by simp [hm])) rfl

/-- MODE_SET writes nothing the invariants speak of: an emission keeps its factor in a new mode. -/
theorem modeSetVariant_keeps_inv (b : BitVec 2) {s t : State} (h : s.Inv)
    (e : exec (modeSetVariant b) s = .next t) : t.Inv := by
  unfold modeSetVariant at e
  split at e <;> cases e <;> exact { h with }

/-- Every operation, performed as the dispatcher picks it, keeps the invariants. -/
theorem dispatched_keeps_inv (op : Op) {s t : State} (h : s.Inv) (e : exec (dispatched op s) s = .next t) : t.Inv := by
  cases op with
  | nop => cases e; exact h
  | tmrTick => exact execTmrTick_keeps_inv s.mode.bits h e
  | rstEdge => exact rstVariant_keeps_inv _ h e
  | clkEdge => exact clkVariant_keeps_inv h e
  | modeSet => exact modeSetVariant_keeps_inv _ h e
  | poll => cases e; exact { h with }

theorem takeInput_keeps_inv {s : State} (h : s.Inv) : (takeInput s).Inv := by
  unfold takeInput
  split <;> exact { h with }

theorem tick_keeps_inv (stim : Stim) {s : State} (h : s.Inv) : ∃ t, tick stim s = .next t ∧ t.Inv := by
  obtain ⟨u, e, hu⟩ := tick_keeps State.Inv stim s (fun op _ _ _ => dispatched_keeps_inv op)
    (startTick_keeps_inv stim h)
  exact ⟨endTick u, e, { hu with }⟩

/-- Settles O50: the start of a tick, each of its operations and its end keep the invariants, and a hardware reset
establishes them. -/
theorem everyStepKeepsTheInvariants : Obligations.EveryStepKeepsTheInvariants := by
  intro s t h e
  cases hin : nextInput s with
  | tick stim =>
    obtain ⟨u, e', hu⟩ := tick_keeps_inv stim (takeInput_keeps_inv h)
    rw [step_tick hin, e'] at e
    cases e
    exact hu
  | hardReset straps =>
    rw [step_hardReset hin] at e
    cases e
    exact resetWith_inv _ _ _ _

end Sys2Proof.Machine
end

section
/-!
PROOF. What a tick without CLK_EDGE and RST_EDGE.DIV does to an emission: the timer's countdown and its TMR_TICK, and
nothing else (R76, R172, R256).
-/

namespace Sys2Proof.Machine

open Sys2Proof.Config

/-! The registers of an emission -/

/-- The registers of an emission: what CLK_EDGE selected, and the scheduler's state, count, output and timer counter
(R29 to R33). -/
structure SameEmission (s t : State) : Prop extends SameSelection s t where
  st : t.st = s.st
  tcnt : t.tcnt = s.tcnt
  pcnt : t.pcnt = s.pcnt
  out : t.out = s.out

theorem SameEmission.refl (s : State) : SameEmission s s := ⟨.refl s, rfl, rfl, rfl, rfl⟩

theorem SameEmission.trans {s t u : State} (h : SameEmission s t) (k : SameEmission t u) : SameEmission s u :=
  ⟨h.toSameSelection.trans k.toSameSelection, k.st.trans h.st, k.tcnt.trans h.tcnt, k.pcnt.trans h.pcnt,
    k.out.trans h.out⟩

/-- The instructions that write a register of an emission (R50). -/
def writesEmission : Instr → Bool
  | .clkEdgeF0 _ | .clkEdgeF1 _ | .clkEdgeDiv | .clkEdgeMult | .clkEdgeMaxmult | .rstEdgeDiv | .tmrTick _ => true
  | .nop | .rstEdgeMult | .rstEdgeMaxmult | .modeSetDiv | .modeSetMult | .modeSetMaxmult | .modeSetIgn
  | .poll _ => false

theorem exec_keeps_emission {i : Instr} (hi : writesEmission i = false) {s t : State} (h : exec i s = .next t) :
    SameEmission s t := by
  cases i with
  | clkEdgeF0 | clkEdgeF1 | clkEdgeDiv | clkEdgeMult | clkEdgeMaxmult | rstEdgeDiv | tmrTick => cases hi
  | rstEdgeMult | rstEdgeMaxmult =>
    have sel := exec_keeps_selection rfl h
    cases h
    exact ⟨sel, by simp, by simp, by simp, by simp⟩
  | nop | modeSetDiv | modeSetMult | modeSetMaxmult | modeSetIgn | poll =>
    have sel := exec_keeps_selection rfl h
    cases h
    exact ⟨sel, rfl, rfl, rfl, rfl⟩

theorem writesEmission_rstVariant {m : Mode} (h : m ≠ .div) : writesEmission (rstVariant m) = false := by
  cases m with
  | div => exact absurd rfl h
  | mult | maxMult => rfl

theorem writesEmission_modeSetVariant (b : BitVec 2) : writesEmission (modeSetVariant b) = false := by
  rw [modeSetVariant]
  split <;> rfl

/-! The order of a tick's operations -/

theorem performAll_append (a b : List Op) (s : State) :
    performAll (a ++ b) s = andThen (performAll a s) (performAll b) := by
  induction a generalizing s with
  | nil => rfl
  | cons op rest ih =>
    rw [List.cons_append, performAll, performAll, andThen_assoc]
    exact congrArg (andThen _) (funext ih)

/-- The NOP of a tick that performs no other operation does nothing (R171, R192). -/
theorem performAll_orNop (ops : List Op) (s : State) :
    performAll (if ops = [] then [.nop] else ops) s = performAll ops s := by
  have nop : performAll [.nop] s = .next s := by simp only [performAll, performWord_formWord]; rfl
  split
  · next h => rw [h, nop, performAll]
  · rfl

/-- The operations a tick performs after TMR_TICK, without the NOP of a tick that performs none (R171). -/
def opsAfterTimer (r : Requests) : List Op :=
  (if r.rst then [.rstEdge] else []) ++ (if r.clk then [.clkEdge] else []) ++
    (if r.modeSet then [.modeSet] else []) ++ (if r.poll then [.poll] else [])

/-- A tick performs TMR_TICK first (R171). -/
theorem performAll_requestedOps (r : Requests) (s : State) :
    performAll (requestedOps r) s = performAll ((if r.tmr then [.tmrTick] else []) ++ opsAfterTimer r) s := by
  rw [requestedOps, performAll_orNop]
  simp only [opsAfterTimer, List.append_assoc]

/-- Requested or not, an operation completes; it leaves the emission if, as performed, it writes no register of one. -/
theorem performAll_optional_keeps_emission (b : Bool) (op : Op) (s : State)
    (h : b = true → writesEmission (dispatched op s) = false) :
    ∃ t, performAll (if b then [op] else []) s = .next t ∧ SameEmission s t := by
  cases b with
  | false => exact ⟨s, rfl, .refl s⟩
  | true =>
    obtain ⟨t, e, -⟩ := exec_completes (dispatched op s) s
    exact ⟨t, by simp [performAll, performWord_formWord, e], exec_keeps_emission (h rfl) e⟩

/-- After TMR_TICK, a tick without CLK_EDGE and without RST_EDGE in DIV mode leaves the emission: RST_EDGE comes before
MODE_SET, so it is performed in the old mode (R171). -/
theorem opsAfterTimer_keep_emission {r : Requests} {s : State} (hclk : r.clk = false)
    (hrst : r.rst = true → s.mode ≠ .div) :
    ∃ t, performAll (opsAfterTimer r) s = .next t ∧ SameEmission s t := by
  obtain ⟨a, ea, ha⟩ := performAll_optional_keeps_emission r.rst .rstEdge s
    fun hr => writesEmission_rstVariant (hrst hr)
  obtain ⟨b, eb, hb⟩ := performAll_optional_keeps_emission r.modeSet .modeSet a
    fun _ => writesEmission_modeSetVariant a.pins.modeIn
  obtain ⟨c, ec, hc⟩ := performAll_optional_keeps_emission r.poll .poll b fun _ => rfl
  refine ⟨c, ?_, (ha.trans hb).trans hc⟩
  simp [opsAfterTimer, hclk, performAll_append, ea, eb, ec]

/-! The timer's part of a tick -/

/-- TMR_TICK as an update of the state (R183). -/
def tmrTicked (s : State) : State :=
  { s with
    pcnt := pcntSucc s.pcnt, out := !s.out, st := if pcntExceeds (pcntSucc s.pcnt) s.factor then .idle else s.st }

theorem exec_tmrTick (m : BitVec 2) (s : State) : exec (.tmrTick m) s = .next (tmrTicked s) := rfl

/-- What the timer makes of a state in a tick: its countdown and, if it fires, TMR_TICK (R170, R172). -/
def timerPart (s : State) : State := if timerFires s then tmrTicked (countTimer s) else countTimer s

@[simp] theorem timerPart_mode (s : State) : (timerPart s).mode = s.mode := by
  unfold timerPart
  split <;> simp [tmrTicked]

theorem timerFires_withPins (stim : Stim) (s : State) : timerFires { s with pins := stim } = timerFires s := rfl

theorem countTimer_withPins (stim : Stim) (s : State) :
    countTimer { s with pins := stim } = { countTimer s with pins := stim } := by
  cases h : s.st <;> simp [countTimer, h, timerFires]

/-- The timer reads no port. -/
theorem timerPart_withPins (stim : Stim) (s : State) :
    timerPart { s with pins := stim } = { timerPart s with pins := stim } := by
  rw [timerPart, timerPart, timerFires_withPins, countTimer_withPins]
  split <;> rfl

/-- A tick is the timer's part followed by the other operations. -/
theorem tick_eq_timerPart (stim : Stim) (s : State) :
    tick stim s =
      andThen (performAll (opsAfterTimer (requests { s with pins := stim })) { timerPart s with pins := stim })
        fun u => .next (endTick u) := by
  have timer : performAll (if (requests { s with pins := stim }).tmr then [.tmrTick] else []) (startTick stim s) =
      .next { timerPart s with pins := stim } := by
    rw [← timerPart_withPins, startTick, timerPart, requests]
    cases timerFires { s with pins := stim } with
    | false => rfl
    | true => simp [performAll, performWord_formWord, dispatched, exec_tmrTick]
  rw [tick, tickOps, performAll_requestedOps, performAll_append, timer, andThen_next]

/-! An emission in progress -/

/-- A tick in which neither CLK_EDGE nor RST_EDGE.DIV is performed leaves an emission as the timer does, whatever its
stimulus is (R76 (c), R256). -/
theorem tick_leaves_emission {stim : Stim} {s : State} (h : leavesEmission stim s = true) :
    ∃ t, tick stim s = .next t ∧ SameEmission (timerPart s) t := by
  simp only [leavesEmission, Bool.and_eq_true, Bool.not_eq_true', Bool.and_eq_false_imp, decide_eq_false_iff_not] at h
  obtain ⟨hclk, hrst⟩ := h
  obtain ⟨t, e, ht⟩ := opsAfterTimer_keep_emission (r := requests { s with pins := stim })
    (s := { timerPart s with pins := stim }) hclk (by simpa [requests] using hrst)
  refine ⟨endTick t, by rw [tick_eq_timerPart, e, andThen_next], ?_⟩
  exact ⟨⟨ht.cycleTime, ht.lastTs, ht.factor, ht.gate, ht.lfsr, ht.tper⟩, ht.st, ht.tcnt, ht.pcnt, ht.out⟩

/-- Settles O56: both ticks leave the emission as the timer alone does, and the timer reads no port. -/
theorem emissionIgnoresModeReadingsAndPoll : Obligations.EmissionIgnoresModeReadingsAndPoll := by
  intro s x y hx hy
  have hstep (stim : Stim) (h : leavesEmission stim s = true) :
      ∃ t, step { s with inputs := [.tick stim] } = .next t ∧ SameEmission (timerPart { s with inputs := [] }) t :=
    tick_leaves_emission (s := { s with inputs := [] }) h
  obtain ⟨t, et, ht⟩ := hstep x hx
  obtain ⟨u, eu, hu⟩ := hstep y hy
  exact ⟨t, u, et, eu, ht.st.trans hu.st.symm, ht.tper.trans hu.tper.symm, ht.tcnt.trans hu.tcnt.symm,
    ht.pcnt.trans hu.pcnt.symm, ht.out.trans hu.out.symm, ht.factor.trans hu.factor.symm,
    ht.cycleTime.trans hu.cycleTime.symm, ht.lfsr.trans hu.lfsr.symm⟩

end Sys2Proof.Machine
end

section
/-!
PROOF. The operation word (R89 to R95): its fields, that decoder and encoder are inverse to each other, the operation
map and the reserved words; and the 46 bits of the stimulus record (R86).
-/

namespace Sys2Proof.Machine

open Sys2Proof.Config

/-! The fields of a record -/

theorem bit_getLsbD {n : Nat} (w : BitVec n) (k : Nat) : bit (w.getLsbD k) = w.extractLsb' k 1 := by
  apply BitVec.eq_of_getLsbD_eq
  intro i hi
  obtain rfl : i = 0 := by omega
  simp [bit]

theorem bit_inj {a b : Bool} (h : bit a = bit b) : a = b := by
  revert a b; decide

theorem append_inj {n k : Nat} {a c : BitVec n} {b d : BitVec k} (h : a ++ b = c ++ d) : a = c ∧ b = d :=
  ⟨by simpa only [BitVec.extractLsb'_append_eq_left] using congrArg (BitVec.extractLsb' k n) h,
    by simpa only [BitVec.extractLsb'_append_eq_right] using congrArg (BitVec.extractLsb' 0 k) h⟩

theorem opw_inj {op op' : BitVec 3} {m m' fc fc' : BitVec 2} (h : opw op m fc = opw op' m' fc') :
    op = op' ∧ m = m' ∧ fc = fc' := by
  obtain ⟨h, -⟩ := append_inj h
  obtain ⟨h, hfc⟩ := append_inj h
  obtain ⟨hop, hm⟩ := append_inj h
  exact ⟨hop, hm, hfc⟩

/-- A word whose reserved bit is 0 is made of its three other fields (R89). -/
theorem opw_fields {w : Byte} (h : w.getLsbD 0 = false) :
    opw (w.extractLsb' 5 3) (w.extractLsb' 3 2) (w.extractLsb' 1 2) = w := by
  have h0 : w.extractLsb' 0 1 = 0 := by rw [← bit_getLsbD, h]; rfl
  rw [opw, ← h0]
  simp (disch := omega) only [BitVec.extractLsb'_append_extractLsb'_eq_extractLsb']
  exact BitVec.extractLsb'_eq_self

theorem opw_reservedBit (op : BitVec 3) (m fc : BitVec 2) : (opw op m fc).getLsbD 0 = false := by
  rw [opw, BitVec.getLsbD_append]
  rfl

@[simp] theorem opw_op (op : BitVec 3) (m fc : BitVec 2) : (opw op m fc).extractLsb' 5 3 = op :=
  (opw_inj (opw_fields (opw_reservedBit op m fc))).1

@[simp] theorem opw_mode (op : BitVec 3) (m fc : BitVec 2) : (opw op m fc).extractLsb' 3 2 = m :=
  (opw_inj (opw_fields (opw_reservedBit op m fc))).2.1

@[simp] theorem opw_class (op : BitVec 3) (m fc : BitVec 2) : (opw op m fc).extractLsb' 1 2 = fc :=
  (opw_inj (opw_fields (opw_reservedBit op m fc))).2.2

/-- A row of the operation map with a mode field: the mask leaves every bit but the mode field's (R94). -/
theorem opw_eq_iff_masked (op : BitVec 3) (m fc : BitVec 2) (w : Byte) :
    opw op m fc = w ↔ w &&& 0xE7 = opw op 0 fc ∧ w.extractLsb' 3 2 = m := by
  constructor
  · rintro rfl
    refine ⟨?_, opw_mode op m fc⟩
    revert op m fc
    decide
  · rintro ⟨h, rfl⟩
    have hop : w.extractLsb' 5 3 = op := by
      rw [← opw_op op 0 fc, ← h, BitVec.extractLsb'_and]
      exact BitVec.and_allOnes.symm
    have hfc : w.extractLsb' 1 2 = fc := by
      rw [← opw_class op 0 fc, ← h, BitVec.extractLsb'_and]
      exact BitVec.and_allOnes.symm
    have hbit : w.getLsbD 0 = false := by
      rw [← opw_reservedBit op 0 fc, ← h, BitVec.getLsbD_and]
      exact (Bool.and_true _).symm
    rw [← hop, ← hfc]
    exact opw_fields hbit

/-! The stimulus record -/

theorem packStim_unpackStim (w : BitVec 46) : packStim (unpackStim w) = w := by
  simp (disch := omega) only [packStim, unpackStim, bit_getLsbD, BitVec.extractLsb'_append_extractLsb'_eq_extractLsb']
  exact BitVec.extractLsb'_eq_self

theorem packStim_inj {x y : Stim} (h : packStim x = packStim y) : x = y := by
  obtain ⟨h, hclk⟩ := append_inj h
  obtain ⟨h, hrst⟩ := append_inj h
  obtain ⟨h, hwe⟩ := append_inj h
  obtain ⟨h, hmode⟩ := append_inj h
  obtain ⟨h, hpoll⟩ := append_inj h
  obtain ⟨h, hadc0⟩ := append_inj h
  obtain ⟨h, hadc1⟩ := append_inj h
  obtain ⟨hadc3, hadc2⟩ := append_inj h
  cases x
  cases y
  rw [Stim.mk.injEq]
  exact ⟨bit_inj hclk, bit_inj hrst, bit_inj hwe, hmode, bit_inj hpoll, hadc0, hadc1, hadc2, hadc3⟩

theorem unpackStim_packStim (x : Stim) : unpackStim (packStim x) = x :=
  packStim_inj (packStim_unpackStim (packStim x))

/-- Settles O6: a field of the packed record is the same field of the record unpacked again. -/
theorem stimulusRecordLayout : Obligations.StimulusRecordLayout := by
  refine ⟨packStim_unpackStim, fun x => ?_⟩
  have h := unpackStim_packStim x
  exact ⟨h, congrArg Stim.clockIn h, congrArg Stim.resetIn h, congrArg Stim.modeWe h, congrArg Stim.modeIn h,
    congrArg Stim.pollReq h, congrArg Stim.adc0 h, congrArg Stim.adc1 h, congrArg Stim.adc2 h, congrArg Stim.adc3 h⟩

/-! Decoder and encoder -/

/-- A mode field a word may have is the code of a mode (R91). -/
theorem exists_bits_of_modeFieldOk {m : BitVec 2} (h : modeFieldOk m = true) : ∃ k : Mode, m = k.bits := by
  have hm : m = 0 ∨ m = 1 ∨ m = 2 := by revert m; decide
  obtain rfl | rfl | rfl := hm
  · exact ⟨.div, rfl⟩
  · exact ⟨.mult, rfl⟩
  · exact ⟨.maxMult, rfl⟩

theorem decode_encode {i : Instr} (h : i.wellFormed = true) : decode (encode i) = .ok i := by
  cases i with
  | nop | rstEdgeDiv | rstEdgeMult | rstEdgeMaxmult | clkEdgeDiv | clkEdgeMult | clkEdgeMaxmult | modeSetDiv
  | modeSetMult | modeSetMaxmult | modeSetIgn => rfl
  | tmrTick m | clkEdgeF0 m | clkEdgeF1 m | poll m =>
    obtain ⟨k, rfl⟩ := exists_bits_of_modeFieldOk h
    cases k <;> rfl

/-- Settles O3: each row of the operation map computes, a row with a mode field at each of the three modes. -/
theorem decodeOfEncodeIsIdentity : Obligations.DecodeOfEncodeIsIdentity := fun _ => decode_encode

theorem decodeModeSet_spec (m : BitVec 2) :
    (decodeModeSet m).wellFormed = true ∧ encode (decodeModeSet m) = opw Op.modeSet.bits m 0 := by
  revert m; decide

theorem decodeRstEdge_spec {m : BitVec 2} (h : m ≠ 3) :
    (decodeRstEdge m).wellFormed = true ∧ encode (decodeRstEdge m) = opw Op.rstEdge.bits m 0 := by
  revert m; decide

/-- What a CLK_EDGE word with a mode field other than 0b11 is read as (R92, R94). -/
theorem decodeClkEdge_inversion {m : BitVec 2} (hm : m ≠ 3) (fc : BitVec 2) :
    (fc = 3 ∧ ∃ e, decodeClkEdge m fc = .error e) ∨
      ∃ i, decodeClkEdge m fc = .ok i ∧ i.wellFormed = true ∧ encode i = opw Op.clkEdge.bits m fc := by
  have hok : modeFieldOk m = true := decide_eq_true hm
  have hfc : fc = 0 ∨ fc = 1 ∨ fc = 2 ∨ fc = 3 := by revert fc; decide
  obtain rfl | rfl | rfl | rfl := hfc
  · exact .inr ⟨_, rfl, hok, rfl⟩
  · exact .inr ⟨_, rfl, hok, rfl⟩
  · obtain ⟨k, rfl⟩ := exists_bits_of_modeFieldOk hok
    cases k <;> exact .inr ⟨_, rfl, rfl, rfl⟩
  · exact .inl ⟨rfl, _, rfl⟩

/-- An operation field is reserved or an operation's (R90, R95), in the order of the decoder's tests. -/
theorem op_cases (op : BitVec 3) : (op = 6 ∨ op = 7) ∨ op = Op.nop.bits ∨ op = Op.modeSet.bits ∨
    op = Op.tmrTick.bits ∨ op = Op.rstEdge.bits ∨ op = Op.clkEdge.bits ∨ op = Op.poll.bits := by
  revert op; decide

/-- What the decoder can answer for a word whose reserved bit is 0, in the order of its tests. -/
theorem decode_opw_inversion (op : BitVec 3) (m fc : BitVec 2) :
    (reservedWord (opw op m fc) ∧ ∃ e, decode (opw op m fc) = .error e) ∨
      ∃ i, decode (opw op m fc) = .ok i ∧ i.wellFormed = true ∧ encode i = opw op m fc := by
  generalize h : decode (opw op m fc) = r
  simp only [decode, opw_reservedBit, opw_op, opw_mode, opw_class, Bool.false_eq_true, if_false] at h
  simp only [reservedWord, opw_reservedBit, opw_op, opw_mode, opw_class, Bool.false_eq_true, false_or]
  obtain ⟨h67, rfl⟩ | ⟨h67, h⟩ := ite_eq_iff.1 h
  · exact .inl ⟨h67.elim .inl fun h7 => .inr (.inl h7), _, rfl⟩
  obtain ⟨h3, rfl⟩ | ⟨-, h⟩ := ite_eq_iff.1 h
  · exact .inl ⟨.inr (.inr (.inl h3)), _, rfl⟩
  obtain ⟨hclass, rfl⟩ | ⟨hclass, h⟩ := ite_eq_iff.1 h
  · exact .inl ⟨.inr (.inr (.inr (.inl hclass.symm))), _, rfl⟩
  have hfc (hne : op ≠ Op.clkEdge.bits) : fc = 0 := by_contra fun hf => hclass ⟨hne, hf⟩
  obtain ⟨hnop, h⟩ | ⟨hnop, h⟩ := ite_eq_iff.1 h
  · obtain ⟨rfl, rfl⟩ | ⟨hm, rfl⟩ := ite_eq_iff.1 h
    · subst hnop
      exact .inr ⟨_, rfl, rfl, by rw [hfc (by decide)]; rfl⟩
    · exact .inl ⟨.inr (.inr (.inr (.inr (.inr ⟨hnop, hm⟩)))), _, rfl⟩
  obtain ⟨rfl, rfl⟩ | ⟨hset, h⟩ := ite_eq_iff.1 h
  · exact .inr ⟨_, rfl, by rw [hfc (by decide)]; exact decodeModeSet_spec m⟩
  obtain ⟨hm, rfl⟩ | ⟨hm, h⟩ := ite_eq_iff.1 h
  · have hop := (((op_cases op).resolve_left h67).resolve_left hnop).resolve_left hset
    exact .inl ⟨.inr (.inr (.inr (.inr (.inl ⟨hm, hop⟩)))), _, rfl⟩
  obtain ⟨rfl, rfl⟩ | ⟨htmr, h⟩ := ite_eq_iff.1 h
  · exact .inr ⟨_, rfl, decide_eq_true hm, by rw [hfc (by decide)]; rfl⟩
  obtain ⟨rfl, rfl⟩ | ⟨hrst, h⟩ := ite_eq_iff.1 h
  · exact .inr ⟨_, rfl, by rw [hfc (by decide)]; exact decodeRstEdge_spec hm⟩
  obtain ⟨rfl, rfl⟩ | ⟨hclk, rfl⟩ := ite_eq_iff.1 h
  · exact (decodeClkEdge_inversion hm fc).imp_left fun ⟨h3, he⟩ => ⟨.inr (.inr (.inl h3)), he⟩
  · obtain rfl : op = Op.poll.bits :=
      ((((op_cases op).resolve_left h67).resolve_left hnop).resolve_left hset).resolve_left htmr
        |>.resolve_left hrst |>.resolve_left hclk
    exact .inr ⟨_, rfl, decide_eq_true hm, by rw [hfc (by decide)]; rfl⟩

/-- What the decoder can answer (R94, R95): it refuses a reserved word, and what it reads from any other word is a
well-formed instruction with that word. -/
theorem decode_inversion (w : Byte) :
    (reservedWord w ∧ ∃ e, decode w = .error e) ∨
      ∃ i, decode w = .ok i ∧ i.wellFormed = true ∧ encode i = w := by
  cases hbit : w.getLsbD 0 with
  | false => rw [← opw_fields hbit]; exact decode_opw_inversion _ _ _
  | true => exact .inl ⟨.inr (.inr (.inl hbit)), _, if_pos hbit⟩

theorem encode_of_decode {w : Byte} {i : Instr} (h : decode w = .ok i) : i.wellFormed = true ∧ encode i = w := by
  obtain ⟨-, e, he⟩ | ⟨j, hj, hwf, henc⟩ := decode_inversion w
  · exact nomatch h.symm.trans he
  · cases h.symm.trans hj
    exact ⟨hwf, henc⟩

/-- Settles O4: the second case of `decode_inversion`. -/
theorem encodeOfDecodeIsIdentity : Obligations.EncodeOfDecodeIsIdentity := fun _ _ => encode_of_decode

theorem decode_eq_ok_iff (w : Byte) (i : Instr) : decode w = .ok i ↔ i.wellFormed = true ∧ encode i = w := by
  constructor
  · exact encode_of_decode
  · rintro ⟨hi, rfl⟩
    exact decode_encode hi

/-- Settles O8: the dispatcher's word decodes to the instruction called for, so it is the word of that instruction. -/
theorem dispatcherFormsTheCalledForWord : Obligations.DispatcherFormsTheCalledForWord := by
  intro op s
  obtain ⟨hwf, henc⟩ := encode_of_decode (decode_formWord op s)
  exact ⟨decode_formWord op s, hwf, henc.symm⟩

/-! Reserved words -/

theorem not_reservedWord_encode {i : Instr} (h : i.wellFormed = true) : ¬ reservedWord (encode i) := by
  unfold reservedWord
  cases i with
  | nop | rstEdgeDiv | rstEdgeMult | rstEdgeMaxmult | clkEdgeDiv | clkEdgeMult | clkEdgeMaxmult | modeSetDiv
  | modeSetMult | modeSetMaxmult | modeSetIgn => decide
  | tmrTick m | clkEdgeF0 m | clkEdgeF1 m | poll m =>
    obtain ⟨k, rfl⟩ := exists_bits_of_modeFieldOk h
    cases k <;> decide

/-- The decoder refuses exactly the reserved words (R95). -/
theorem decode_error_iff (w : Byte) : (∃ e, decode w = .error e) ↔ reservedWord w := by
  obtain ⟨hres, he⟩ | ⟨i, hi, hwf, rfl⟩ := decode_inversion w
  · exact iff_of_true he hres
  · refine iff_of_false ?_ (not_reservedWord_encode hwf)
    rintro ⟨e, he⟩
    exact nomatch hi.symm.trans he

/-- A recorded trace is refused at its first reserved word (R95). -/
theorem decodeListing_error_iff (l : List (Word × Byte)) :
    (∃ e, Trace.decodeListing l = .error e) ↔ ∃ r, r ∈ l ∧ reservedWord r.2 := by
  induction l with
  | nil => simp [Trace.decodeListing]
  | cons r rest ih =>
    obtain ⟨t, w⟩ := r
    have hw := decode_error_iff w
    simp only [Trace.decodeListing, List.mem_cons, exists_eq_or_imp, ← ih, ← hw]
    cases decode w with
    | error e => simp
    | ok i => cases Trace.decodeListing rest <;> simp

/-- Settles O5: the decoder refuses exactly the reserved words, the dispatcher's words decode, and a recorded trace is
read word by word. -/
theorem reservedWordsAreRefused : Obligations.ReservedWordsAreRefused := by
  refine ⟨decode_error_iff, fun op s => ?_, decodeListing_error_iff⟩
  rw [← decode_error_iff, decode_formWord]
  rintro ⟨_, ⟨⟩⟩

/-! The operation map -/

/-- A row without a mode field is read from its one word (R94). -/
theorem decode_eq_ok_iff_eq_encode {i : Instr} (h : i.wellFormed = true) (w : Byte) :
    decode w = .ok i ↔ w = encode i := by
  rw [decode_eq_ok_iff, eq_comm (a := w)]
  exact and_iff_right h

/-- A row with a mode field is read from the words of its pattern, the mode field not 0b11 (R94, R95). -/
theorem decode_eq_ok_iff_masked {i : Instr} {op : BitVec 3} {m fc : BitVec 2} (hi : encode i = opw op m fc)
    (hwf : i.wellFormed = modeFieldOk m) (w : Byte) :
    decode w = .ok i ↔ w &&& 0xE7 = opw op 0 fc ∧ w.extractLsb' 3 2 = m ∧ m ≠ 3 := by
  rw [decode_eq_ok_iff, hi, hwf, opw_eq_iff_masked, modeFieldOk, decide_eq_true_eq, and_comm, and_assoc]

/-- Of the 256 words, 23 decode (R94). -/
theorem decodable_words_length : ((List.range 256).filter fun n => (decodeTableWord 8 n).isSome).length = 23 := by
  set_option maxRecDepth 20000 in
  decide

/-- Settles O1: a word decodes to an instruction exactly if it is its encoding; for a row with a mode field this is the
masked match. -/
theorem operationMap : Obligations.OperationMap := by
  refine ⟨fun w => ?_, fun w m => ?_, by decide, by decide, decodable_words_length⟩
  · refine ⟨?_, ?_, ?_, ?_, ?_, ?_, ?_, ?_, ?_, ?_, ?_⟩ <;> exact decode_eq_ok_iff_eq_encode rfl w
  · exact ⟨decode_eq_ok_iff_masked (i := .tmrTick m) rfl rfl w,
      decode_eq_ok_iff_masked (i := .clkEdgeF0 m) rfl rfl w,
      decode_eq_ok_iff_masked (i := .clkEdgeF1 m) rfl rfl w, decode_eq_ok_iff_masked (i := .poll m) rfl rfl w⟩

/-- Settles O2: nine closed words, each of which the decoder computes. -/
theorem writtenWordsDecode : Obligations.WrittenWordsDecode := by
  unfold Obligations.WrittenWordsDecode
  decide

end Sys2Proof.Machine
end

section
/-!
PROOF. A placed instruction is the next step's (R39, R88): the state and the stimulus of `placeInstr` request the
instruction's operation alone, and in that state the dispatcher picks the instruction.
-/

namespace Sys2Proof.Machine

open Sys2Proof.Config

theorem tableBytes_toNat (w : Byte) : tableBytes 8 w.toNat = [w] := by
  have hbyte : BitVec.ofNat 8 (w.toNat % 2 ^ 8 / 2 ^ (8 * 0)) = w :=
    BitVec.eq_of_toNat_eq (by simp [Nat.mod_eq_of_lt w.isLt])
  exact congrArg (fun b => [b]) hbyte

/-- An instruction is read back from the number of its word. -/
theorem decodeTableWord_encode {i : Instr} (h : i.wellFormed = true) : decodeTableWord 8 (encode i).toNat = some i := by
  rw [decodeTableWord, tableBytes_toNat, decodeBytes, decode_encode h]

theorem withFetchWord_encode {i : Instr} (h : i.wellFormed = true) (s : State) :
    s.withFetchWord 8 (encode i).toNat = placeInstr i s := by
  rw [State.withFetchWord, placeWord, decodeTableWord_encode h]

/-- The operation of which an instruction is a variant (R90, R94). -/
def operation : Instr → Op
  | .nop => .nop
  | .tmrTick _ => .tmrTick
  | .rstEdgeDiv | .rstEdgeMult | .rstEdgeMaxmult => .rstEdge
  | .clkEdgeF0 _ | .clkEdgeF1 _ | .clkEdgeDiv | .clkEdgeMult | .clkEdgeMaxmult => .clkEdge
  | .modeSetDiv | .modeSetMult | .modeSetMaxmult | .modeSetIgn => .modeSet
  | .poll _ => .poll

/-- A draw between equal bounds answers the bound, by either method (R155, R156). -/
theorem rngRange_self (p : Params) (n b : Nat) (l : BitVec 16) : (rngRange p n b b l).1 = b := by
  have h := drawBelow_lt p n b b l
  simp only [rngRange]
  omega

theorem listWords_single (op : Op) (s : State) : listWords [op] s = [formWord op s] := by
  obtain ⟨t, e, -⟩ := exec_completes (dispatched op s) s
  simp only [listWords, performWord_formWord, e]

/-- With both frequency channels at one reading, the factor is the reading's value in the table of the mode. -/
theorem fsSelect_clkStim {s : State} {r : Reading} (h : s.pins = clkStim r) :
    (fsSelect s).1 = if s.mode = .div then divValue r.toNat else multValue r.toNat := by
  have hmax : maxReading r r = r.toNat := max_self _
  cases hm : s.mode with
  | div => simp [fsSelect, hm, adcRead, h, clkStim, hmax]
  | mult => simp [fsSelect, hm, adcRead, h, clkStim, hmax]
  | maxMult => simp [fsSelect, hm, maxMultBounds, adcRead, h, clkStim, rngRange_self]

@[simp] theorem ofBits?_bits (k : Mode) : Mode.ofBits? k.bits = some k := by cases k <;> rfl

/-- The dispatcher picks the placed instruction, in its mode and with its stimulus on the ports. -/
theorem dispatched_operation {i : Instr} (h : i.wellFormed = true) {s t : State} (hmode : t.mode = requiredMode i s)
    (hpins : t.pins = requestStim i) : dispatched (operation i) t = i := by
  cases i with
  | nop => rfl
  | tmrTick m | poll m =>
    obtain ⟨k, rfl⟩ := exists_bits_of_modeFieldOk h
    simp [dispatched, operation, hmode, requiredMode]
  | rstEdgeDiv | rstEdgeMult | rstEdgeMaxmult => rw [operation, dispatched, hmode]; rfl
  | modeSetDiv | modeSetMult | modeSetMaxmult | modeSetIgn => rw [operation, dispatched, hpins]; rfl
  | clkEdgeF0 m | clkEdgeF1 m =>
    obtain ⟨k, rfl⟩ := exists_bits_of_modeFieldOk h
    have hk : t.mode = k := by simpa [requiredMode] using hmode
    rw [operation, dispatched, fsSelect_clkStim hpins, hk]
    cases k <;> rfl
  | clkEdgeDiv | clkEdgeMult | clkEdgeMaxmult =>
    rw [operation, dispatched, fsSelect_clkStim hpins, hmode]; rfl

theorem requireTimer_eq (i : Instr) (s : State) :
    requireTimer i s = if operation i = .tmrTick then { s with st := .emit, tcnt := 1 }
      else if timerFires s then { s with st := .idle } else s := by
  cases i <;> rfl

/-- The placed state's timer is due exactly for TMR_TICK (R172). -/
theorem timerFires_requireTimer (i : Instr) (s : State) :
    timerFires (requireTimer i s) = decide (operation i = .tmrTick) := by
  rw [requireTimer_eq]
  by_cases hop : operation i = .tmrTick
  · rw [if_pos hop, decide_eq_true hop]
    rfl
  · rw [if_neg hop, decide_eq_false hop]
    cases hfire : timerFires s with
    | true => rfl
    | false => exact hfire

theorem risingEdge_and_not (level prev : Bool) : risingEdge level (prev && !level) = level := by
  revert level prev; decide

/-- The placed stimulus on the placed state requests the instruction's operation and no other (R87, R88). -/
theorem requests_placeInstr (i : Instr) (s : State) :
    requests { takeInput (placeInstr i s) with pins := requestStim i } =
      { tmr := decide (operation i = .tmrTick), rst := decide (operation i = .rstEdge),
        clk := decide (operation i = .clkEdge), modeSet := decide (operation i = .modeSet),
        poll := decide (operation i = .poll) } := by
  rw [requests, Requests.mk.injEq]
  refine ⟨timerFires_requireTimer i s, (risingEdge_and_not _ s.prevRst).trans ?_,
    (risingEdge_and_not _ s.prevClk).trans ?_, ?_, ?_⟩
  all_goals cases i <;> rfl

theorem tickOps_placeInstr (i : Instr) (s : State) :
    tickOps (requestStim i) (takeInput (placeInstr i s)) = [operation i] := by
  rw [tickOps, requests_placeInstr]
  cases operation i <;> rfl

/-- Settles O14: the placed stimulus requests the instruction's operation alone, the dispatcher picks the instruction
for it, and its word is the instruction's encoding. -/
theorem placedInstructionIsTheNextStep : Obligations.PlacedInstructionIsTheNextStep := by
  intro i s h
  rw [withFetchWord_encode h]
  refine ⟨requestStim i, rfl, ?_⟩
  have hpicked : dispatched (operation i) (startTick (requestStim i) (takeInput (placeInstr i s))) = i :=
    dispatched_operation h (s := s) (by simp [placeInstr]) (by simp)
  obtain ⟨-, -, hform⟩ := dispatcherFormsTheCalledForWord (operation i)
    (startTick (requestStim i) (takeInput (placeInstr i s)))
  rw [tickWords, tickOps_placeInstr, listWords_single, hform, hpicked]

end Sys2Proof.Machine
end

section
/-!
PROOF. Trace programs: the single-tick lines a pulse or a row of edges expands to (R100), and that a program is checked
for conflicts at every tick (R99).
-/

namespace Sys2Proof.Machine

open Sys2Proof.Config

/-! Pulses and rows of edges -/

/-- A tick is in a pulse exactly if it is one of the pulse's single ticks. -/
theorem mem_pulse_iff (t w u : Nat) : (t ≤ u ∧ u < t + w) ↔ ∃ k < w, u = t + k := by
  constructor
  · rintro ⟨hle, hlt⟩
    exact ⟨u - t, by omega, by omega⟩
  · rintro ⟨k, hk, rfl⟩
    omega

/-- A tick is in a row of edges exactly if it is one of the row's single ticks. -/
theorem mem_every_iff (t n u : Nat) {p : Nat} (hp : 0 < p) :
    (t ≤ u ∧ (u - t) % p = 0 ∧ (u - t) / p < n) ↔ ∃ k < n, u = t + k * p := by
  constructor
  · rintro ⟨hle, hmod, hlt⟩
    have hk : (u - t) / p * p = u - t := Nat.div_mul_cancel (Nat.dvd_of_mod_eq_zero hmod)
    exact ⟨(u - t) / p, hlt, by omega⟩
  · rintro ⟨k, hk, rfl⟩
    rw [Nat.add_sub_cancel_left, Nat.mul_mod_left, Nat.mul_div_cancel k hp]
    exact ⟨Nat.le_add_right _ _, rfl, hk⟩

/-- Settles O47: both sides say that `u` is one of the line's single ticks. -/
theorem pulseLinesExpandToSingleTicks : Obligations.PulseLinesExpandToSingleTicks := by
  refine ⟨fun t w u => ?_, fun t w u => ?_, fun t p n u hp => ?_⟩ <;> rw [Bool.eq_iff_iff]
  · simp [Trace.Line.clockHigh, mem_pulse_iff]
  · simp [Trace.Line.resetHigh, mem_pulse_iff]
  · simp [Trace.Line.clockHigh, and_assoc, mem_every_iff t n u (show 0 < p by omega)]

/-! Conflicts -/

theorem spacingOk_iff (l : Trace.Line) : l.spacingOk = true ↔ ∀ t d n, l = .every t d n → 2 ≤ d := by
  cases l <;> simp [Trace.Line.spacingOk]

/-- The readings a program sets at a tick are those of its ADC lines at it (R99). -/
theorem mem_readings_iff (lines : List Trace.Line) (u : Nat) (r : Nat × Reading × Reading × Reading × Reading) :
    r ∈ (lines.filterMap Trace.Line.readings).filter (fun r => decide (r.1 = u)) ↔
      ∃ a0 a1 a2 a3, .adc u a0 a1 a2 a3 ∈ lines ∧ r = (u, a0, a1, a2, a3) := by
  simp only [List.mem_filter, List.mem_filterMap, decide_eq_true_eq]
  constructor
  · rintro ⟨⟨l, hl, hr⟩, rfl⟩
    cases l with
    | adc t a0 a1 a2 a3 => cases hr; exact ⟨a0, a1, a2, a3, hl, rfl⟩
    | clk | rst | mode | poll | pulse | rpulse | click1 | click2 | every => cases hr
  · rintro ⟨a0, a1, a2, a3, hl, rfl⟩
    exact ⟨⟨_, hl, rfl⟩, rfl⟩

/-- No two lines of the program conflict at the tick (R99). -/
def NoConflictAt (p : Trace.Program) (u : Nat) : Prop :=
  (∀ a b, a ∈ Trace.modeRequests p.lines (Trace.controllerAt p u) u →
    b ∈ Trace.modeRequests p.lines (Trace.controllerAt p u) u → a = b) ∧
  ∀ a0 a1 a2 a3 b0 b1 b2 b3, Trace.Line.adc u a0 a1 a2 a3 ∈ p.lines → Trace.Line.adc u b0 b1 b2 b3 ∈ p.lines →
    a0 = b0 ∧ a1 = b1 ∧ a2 = b2 ∧ a3 = b3

theorem tickWellFormed_iff (p : Trace.Program) (u : Nat) : Trace.tickWellFormed p u = true ↔ NoConflictAt p u := by
  rw [Trace.tickWellFormed, Bool.and_eq_true, Trace.allAgree_iff, Trace.allAgree_iff, NoConflictAt]
  refine and_congr_right fun _ => ?_
  simp only [mem_readings_iff]
  constructor
  · intro h a0 a1 a2 a3 b0 b1 b2 b3 ha hb
    simpa using h _ _ ⟨a0, a1, a2, a3, ha, rfl⟩ ⟨b0, b1, b2, b3, hb, rfl⟩
  · rintro h _ _ ⟨a0, a1, a2, a3, ha, rfl⟩ ⟨b0, b1, b2, b3, hb, rfl⟩
    obtain ⟨rfl, rfl, rfl, rfl⟩ := h _ _ _ _ _ _ _ _ ha hb
    rfl

/-- At a tick that no line names no line requests a mode or sets a reading. -/
theorem noConflictAt_of_unnamed {p : Trace.Program} {u : Nat} (h : ∀ l ∈ p.lines, u ≠ l.tick) :
    NoConflictAt p u := by
  refine ⟨fun a b ha => ?_, fun a0 a1 a2 a3 b0 b1 b2 b3 ha => absurd rfl (h _ ha)⟩
  obtain ⟨l, hl, hm⟩ := List.mem_filterMap.1 ha
  rw [Trace.Line.modeAt_eq_none _ u l (h l hl)] at hm
  cases hm

/-- Settles O60: the check at the ticks the lines name is one at every tick, since no line sets a field at another. -/
theorem wellFormedProgramsHaveNoConflict : Obligations.WellFormedProgramsHaveNoConflict := by
  intro p
  change p.wellFormed = true ↔ _ ∧ ∀ u, NoConflictAt p u
  rw [Trace.Program.wellFormed, Bool.and_eq_true, List.all_eq_true, List.all_eq_true]
  refine and_congr ?_ ?_
  · simp only [spacingOk_iff]
    exact ⟨fun h t d n hl => h _ hl t d n rfl, fun h l hl t d n e => h t d n (e ▸ hl)⟩
  · simp only [tickWellFormed_iff]
    refine ⟨fun h u => ?_, fun h l _ => h l.tick⟩
    by_cases hu : ∃ l ∈ p.lines, u = l.tick
    · obtain ⟨l, hl, rfl⟩ := hu
      exact h l hl
    · exact noConflictAt_of_unnamed fun l hl e => hu ⟨l, hl, e⟩

end Sys2Proof.Machine
end

section
/-!
PROOF. The period estimator (R120 to R125): what an edge does to a window whose sum is in range, what several edges do
to it, and that every variant of CLK_EDGE feeds the estimator once, with `now` (R176).
-/

namespace Sys2Proof.Machine

/-! One edge -/

/-- The sum is at most that of `cnt` deltas of 2^32 - 1 each (R48 (b)), so the register takes the next delta exactly
(R24). -/
def SumInRange (s : State) : Prop := s.sum.toNat ≤ s.cnt.toNat * (2 ^ 32 - 1)

section
variable (t : Word) {s : State}

theorem peOnEdge_closes_cycleTime (hfull : s.cnt.toNat = 4) (hsum : SumInRange s) :
    (peOnEdge t s).cycleTime.toNat = max 1 ((s.sum.toNat + (peDelta t s).toNat) / 5) := by
  have hdelta := (peDelta t s).isLt
  rw [SumInRange, hfull] at hsum
  rw [peOnEdge_closes t s hfull, BitVec.toNat_ofNat, Nat.mod_eq_of_lt (by omega)]

theorem peOnEdge_adds_cnt (hcnt : s.cnt.toNat < 4) : (peOnEdge t s).cnt.toNat = s.cnt.toNat + 1 := by
  rw [peOnEdge_adds t s hcnt.ne, BitVec.toNat_ofNat, Nat.mod_eq_of_lt (by omega)]

theorem peOnEdge_adds_sum (hcnt : s.cnt.toNat < 4) (hsum : SumInRange s) :
    (peOnEdge t s).sum.toNat = s.sum.toNat + (peDelta t s).toNat := by
  have hdelta := (peDelta t s).isLt
  rw [SumInRange] at hsum
  rw [peOnEdge_adds t s hcnt.ne, BitVec.toNat_ofNat, Nat.mod_eq_of_lt (by omega)]

theorem peOnEdge_adds_sumInRange (hcnt : s.cnt.toNat < 4) (hsum : SumInRange s) : SumInRange (peOnEdge t s) := by
  have hdelta := (peDelta t s).isLt
  rw [SumInRange, peOnEdge_adds_cnt t hcnt, peOnEdge_adds_sum t hcnt hsum]
  rw [SumInRange] at hsum
  omega

theorem peOnEdge_adds_cycleTime (hcnt : s.cnt.toNat < 4) : (peOnEdge t s).cycleTime = s.cycleTime := by
  rw [peOnEdge_adds t s hcnt.ne]

end

/-! Several edges -/

/-- The modular deltas of the edges, the first counted from `last`, added without narrowing (R121, R123). -/
def deltaSum : Word → List Word → Nat
  | _, [] => 0
  | last, t :: ts => (t - last).toNat + deltaSum t ts

/-- Edges that do not complete the window are counted and their deltas added; the estimate stays (R121). -/
theorem feedEdges_unfinished (ts : List Word) {s : State} (hcnt : s.cnt.toNat + ts.length ≤ 4) (hsum : SumInRange s) :
    (feedEdges ts s).cycleTime = s.cycleTime ∧ (feedEdges ts s).cnt.toNat = s.cnt.toNat + ts.length ∧
    (feedEdges ts s).sum.toNat = s.sum.toNat + deltaSum s.lastTs ts ∧ SumInRange (feedEdges ts s) := by
  induction ts generalizing s with
  | nil => exact ⟨rfl, rfl, rfl, hsum⟩
  | cons t ts ih =>
    rw [List.length_cons] at hcnt
    have hlt : s.cnt.toNat < 4 := by omega
    have cnt := peOnEdge_adds_cnt t hlt
    obtain ⟨ihct, ihcnt, ihsum, ihrange⟩ := ih (by omega) (peOnEdge_adds_sumInRange t hlt hsum)
    refine ⟨ihct.trans (peOnEdge_adds_cycleTime t hlt), ?_, ?_, ihrange⟩
    · rw [feedEdges, ihcnt, cnt, List.length_cons]
      omega
    · rw [feedEdges, ihsum, peOnEdge_adds_sum t hlt hsum, peOnEdge_lastTs, deltaSum, peDelta, Nat.add_assoc]

/-- Settles O28: up to four edges leave the window unfinished, and the fifth closes the window that four have filled. -/
theorem windowOfFiveIsAveraged : Obligations.WindowOfFiveIsAveraged := by
  intro s t1 t2 t3 t4 t5 hcnt hsum deltas
  have unfinished (ts : List Word) (h : ts.length ≤ 4) :=
    feedEdges_unfinished ts (s := s) (by simpa [hcnt] using h) (by simp [SumInRange, hsum])
  have kept (ts : List Word) (h : ts.length ≤ 4) : (feedEdges ts s).cycleTime = s.cycleTime := (unfinished ts h).1
  refine ⟨kept [t1] (by simp), kept [t1, t2] (by simp), kept [t1, t2, t3] (by simp), kept [t1, t2, t3, t4] le_rfl, ?_⟩
  obtain ⟨-, full, total, inRange⟩ := unfinished [t1, t2, t3, t4] le_rfl
  have last : (feedEdges [t1, t2, t3, t4] s).lastTs = t4 := by simp only [feedEdges, peOnEdge_lastTs]
  have fifth : feedEdges [t1, t2, t3, t4, t5] s = peOnEdge t5 (feedEdges [t1, t2, t3, t4] s) := rfl
  rw [fifth]
  generalize feedEdges [t1, t2, t3, t4] s = u at full total inRange last
  replace full : u.cnt.toNat = 4 := by simpa [hcnt] using full
  have sum : u.sum.toNat + (peDelta t5 u).toNat = deltas := by
    simp [total, hsum, last, peDelta, deltaSum, deltas, Nat.add_assoc]
  rw [← sum]
  refine ⟨peOnEdge_closes_cycleTime t5 full inRange, ?_, ?_, peOnEdge_lastTs t5 u⟩ <;> rw [peOnEdge_closes t5 u full]

/-! The variants of CLK_EDGE -/

/-- The registers of the estimator (R23 to R26). -/
structure SameEstimator (s t : State) : Prop where
  lastTs : t.lastTs = s.lastTs
  sum : t.sum = s.sum
  cnt : t.cnt = s.cnt
  cycleTime : t.cycleTime = s.cycleTime

/-- After the common part no variant of CLK_EDGE writes a register of the estimator (R176 to R181). -/
theorem exec_clkEdge_feeds_estimator {i : Instr} (hi : isClkEdge i = true) (s : State) :
    ∃ t, exec i s = .next t ∧ SameEstimator (peOnEdge s.now s) t := by
  cases i with
  | clkEdgeDiv => exact ⟨_, execClkEdgeDiv_eq s, by constructor <;> simp⟩
  | clkEdgeF0 | clkEdgeF1 | clkEdgeMult | clkEdgeMaxmult => exact ⟨_, rfl, by constructor <;> simp⟩
  | nop | tmrTick | rstEdgeDiv | rstEdgeMult | rstEdgeMaxmult | modeSetDiv | modeSetMult | modeSetMaxmult | modeSetIgn
  | poll => cases hi

/-- Settles O27: the instruction leaves the estimator as one edge at `now` does, and the two clauses are the two cases
of an edge. -/
theorem estimatorTakesTheDelta : Obligations.EstimatorTakesTheDelta := by
  intro i s hi hinv delta
  obtain ⟨t, e, lastTs, sum, cnt, cycleTime⟩ := exec_clkEdge_feeds_estimator hi s
  have hdelta : delta = (peDelta s.now s).toNat := (peDelta_toNat s.now s).symm
  refine ⟨t, e, lastTs.trans (peOnEdge_lastTs s.now s), fun hfull => ?_, fun hne => ?_⟩ <;>
    rw [sum, cnt, cycleTime, hdelta]
  · refine ⟨?_, ?_, peOnEdge_closes_cycleTime s.now hfull hinv.sum_le⟩ <;> rw [peOnEdge_closes s.now s hfull]
  · have hlt : s.cnt.toNat < 4 := lt_of_le_of_ne hinv.cnt_le hne
    exact ⟨peOnEdge_adds_cnt s.now hlt, peOnEdge_adds_sum s.now hlt hinv.sum_le, peOnEdge_adds_cycleTime s.now hlt⟩

end Sys2Proof.Machine
end

section
/-!
PROOF. The factor selector (R135 to R142): the table values by reading, the factor each mode selects, that every variant
of CLK_EDGE writes it (R176), and what POLL shows of it.
-/

namespace Sys2Proof.Machine

open Sys2Proof.Config

/-! The tables -/

/-- The clamp never acts on a 10-bit reading (R136 (a)). -/
theorem fsIndex_eq_div {r : Nat} (hr : r < 1024) {n : Nat} (hn : 0 < n) : fsIndex r n = r * n / 1024 := by
  have hlt : r * n / 1024 < n := Nat.div_lt_of_lt_mul (Nat.mul_lt_mul_of_pos_right hr hn)
  exact min_eq_right (Nat.le_sub_one_of_lt hlt)

theorem lutRead_multTable_toNat {i : Nat} (h : i < 6) : (lutRead multTable i).toNat = i := by
  revert i; decide

theorem lutRead_divTable_toNat {i : Nat} (h : i < 11) :
    (lutRead divTable i).toNat = if i < 10 then i else 16 := by
  revert i; decide

theorem multValue_toNat {r : Nat} (hr : r < 1024) : (multValue r).toNat = r * 6 / 1024 := by
  rw [multValue, fsIndex_eq_div hr (by decide), lutRead_multTable_toNat (by omega)]

theorem divValue_toNat {r : Nat} (hr : r < 1024) :
    (divValue r).toNat = if r * 11 / 1024 < 10 then r * 11 / 1024 else 16 := by
  rw [divValue, fsIndex_eq_div hr (by decide), lutRead_divTable_toNat (by omega)]

/-- Settles O29: the value is the reading times the table's size over 1024, in DIV with 16 for 10; the quotient fixes
between which two thresholds the reading lies. -/
theorem readingThresholdsOfTheTables : Obligations.ReadingThresholdsOfTheTables := by
  refine ⟨fun r hr => ?_, fun r hr => ?_⟩
  · rw [multValue_toNat hr]
    split_ifs <;> omega
  · rw [divValue_toNat hr]
    have hq : r * 11 / 1024 < 11 := by omega
    interval_cases q : r * 11 / 1024 <;> simp (disch := omega) only [if_pos, if_neg]

/-! The factor each mode selects -/

/-- R137. -/
theorem fsSelect_mult {s : State} (h : s.mode = .mult) :
    fsSelect s = (multValue (max s.pins.adc2.toNat s.pins.adc3.toNat), s.lfsr) := by
  rw [fsSelect, h]
  rfl

/-- R138. -/
theorem fsSelect_div {s : State} (h : s.mode = .div) :
    fsSelect s = (divValue (max s.pins.adc2.toNat s.pins.adc3.toNat), s.lfsr) := by
  rw [fsSelect, h]
  rfl

/-- Only MAX_MULT mode draws (R137, R138). -/
theorem fsSelect_lfsr {s : State} (h : s.mode ≠ .maxMult) : (fsSelect s).2 = s.lfsr := by
  cases hm : s.mode with
  | mult => rw [fsSelect_mult hm]
  | div => rw [fsSelect_div hm]
  | maxMult => exact absurd hm h

theorem maxMultBounds_ordered (s : State) : (maxMultBounds s).1 ≤ (maxMultBounds s).2 := min_le_max

theorem maxMultBounds_le_five (s : State) : (maxMultBounds s).2 ≤ 5 := max_le (multValue_le _) (multValue_le _)

/-- In MAX_MULT mode the selection is the bounded draw: the drawn number fits the factor register (R140). -/
theorem fsSelect_maxMult {s : State} (h : s.mode = .maxMult) :
    ((fsSelect s).1.toNat, (fsSelect s).2) =
      rngRange s.params 4 (maxMultBounds s).1 (maxMultBounds s).2 s.lfsr := by
  have hle := (rngRange_le s.params 4 (maxMultBounds_ordered s) s.lfsr).trans (maxMultBounds_le_five s)
  rw [fsSelect, h]
  exact Prod.ext (Nat.mod_eq_of_lt (hle.trans_lt (by decide))) rfl

/-- A bounded draw is at least its lower bound (R157 (a)). -/
theorem le_rngRange (p : Params) (n lo hi : Nat) (l : BitVec 16) : lo ≤ (rngRange p n lo hi l).1 :=
  Nat.le_add_right _ _

/-- The MODULO method makes one draw of `n` bits, whatever the span is (R155). -/
theorem rngRange_modulo {p : Params} (hp : p.rangeMethod = .modulo) (n lo hi : Nat) (l : BitVec 16) :
    rngRange p n lo hi l =
      (lo + (rngBits p.rngStep n l).1 % (hi - lo + 1), (rngBits p.rngStep n l).2) := by
  rw [rngRange, drawBelow, hp]

/-- Settles O31: the selection is the bounded draw, and a draw with MODULO is explicit. -/
theorem maxMultFactorIsDrawn : Obligations.MaxMultFactorIsDrawn := by
  intro s h fa fb
  have drawn : ((fsSelect s).1.toNat, (fsSelect s).2) = rngRange s.params 4 (min fa fb) (max fa fb) s.lfsr :=
    fsSelect_maxMult h
  refine ⟨drawn, fun hmod => ?_⟩
  rw [rngRange_modulo hmod] at drawn
  exact Prod.ext_iff.1 drawn

/-- R141. -/
theorem fsSelect_maxMult_bounds {s : State} (h : s.mode = .maxMult) :
    (maxMultBounds s).1 ≤ (fsSelect s).1.toNat ∧ (fsSelect s).1.toNat ≤ (maxMultBounds s).2 := by
  have drawn := congrArg Prod.fst (fsSelect_maxMult h)
  dsimp only at drawn
  rw [drawn]
  exact ⟨le_rngRange _ _ _ _ _, rngRange_le _ _ (maxMultBounds_ordered s) _⟩

/-- With equal table values the draw of MAX_MULT mode answers their one value (R140). -/
theorem fsSelect_maxMult_of_eq {s : State} (h : s.mode = .maxMult)
    (heq : multValue s.pins.adc2.toNat = multValue s.pins.adc3.toNat) :
    (fsSelect s).1 = multValue s.pins.adc2.toNat := by
  have bounds : maxMultBounds s = ((multValue s.pins.adc2.toNat).toNat, (multValue s.pins.adc2.toNat).toNat) := by
    simp only [maxMultBounds, adcRead, ← heq, min_self, max_self]
  obtain ⟨hlo, hhi⟩ := fsSelect_maxMult_bounds h
  rw [bounds] at hlo hhi
  exact BitVec.eq_of_toNat_eq (le_antisymm hhi hlo)

/-! The variants of CLK_EDGE -/

theorem clkCommon_selects (s : State) :
    (clkCommon s).factor = (fsSelect s).1 ∧ (clkCommon s).lfsr = (fsSelect s).2 := by
  rw [clkCommon_eq]
  exact ⟨rfl, rfl⟩

/-- After the common part no variant of CLK_EDGE writes the factor, and only the gate draws again (R176 to R181). -/
theorem exec_clkEdge_writes_selection {i : Instr} (hi : isClkEdge i = true) (s : State) :
    ∃ t, exec i s = .next t ∧ t.factor = (fsSelect s).1 ∧ (consultsGate i = false → t.lfsr = (fsSelect s).2) := by
  obtain ⟨factor, lfsr⟩ := clkCommon_selects s
  cases i with
  | clkEdgeDiv => exact ⟨_, execClkEdgeDiv_eq s, factor, fun hg => nomatch hg⟩
  | clkEdgeMult => exact ⟨_, rfl, factor, fun hg => nomatch hg⟩
  | clkEdgeF0 | clkEdgeF1 | clkEdgeMaxmult => exact ⟨_, rfl, factor, fun _ => lfsr⟩
  | nop | tmrTick | rstEdgeDiv | rstEdgeMult | rstEdgeMaxmult | modeSetDiv | modeSetMult | modeSetMaxmult | modeSetIgn
  | poll => cases hi

/-- Settles O30: the instruction writes the selection, which MULT and DIV modes take from their table without a
draw. -/
theorem multAndDivFactorFromTheLargerReading : Obligations.MultAndDivFactorFromTheLargerReading := by
  intro i s hi r
  obtain ⟨t, e, factor, lfsr⟩ := exec_clkEdge_writes_selection hi s
  refine ⟨t, e, fun hm => ?_, fun hm => ?_, fun hm => ⟨fsSelect_lfsr hm, fun hg => ?_⟩⟩
  · rw [factor, fsSelect_mult hm]; rfl
  · rw [factor, fsSelect_div hm]; rfl
  · rw [lfsr hg, fsSelect_lfsr hm]

/-- Settles O32: the instruction writes the selection, which lies between the two bounds. -/
theorem maxMultFactorStaysInBounds : Obligations.MaxMultFactorStaysInBounds := by
  intro i s hi hm fa fb
  obtain ⟨t, e, factor, -⟩ := exec_clkEdge_writes_selection hi s
  obtain ⟨hlo, hhi⟩ := fsSelect_maxMult_bounds hm
  rw [← factor] at hlo hhi
  exact ⟨t, e, hlo, hhi, maxMultBounds_le_five s⟩

/-! The preview -/

/-- In MAX_MULT mode POLL shows the class of the one table value, if there is only one (R142). -/
theorem fsPreview_maxMult {s : State} (h : s.mode = .maxMult) :
    fsPreview s = if multValue s.pins.adc2.toNat ≠ multValue s.pins.adc3.toNat then .fn
      else factorClass (multValue s.pins.adc2.toNat) := by
  rw [fsPreview, h]
  rfl

/-- Outside MAX_MULT mode POLL shows the class of the selection (R142). -/
theorem fsPreview_of_ne_maxMult {s : State} (h : s.mode ≠ .maxMult) : fsPreview s = factorClass (fsSelect s).1 := by
  rw [fsPreview, fsSelect]
  cases hm : s.mode with
  | mult | div => rfl
  | maxMult => exact absurd hm h

/-- Settles O33: in MAX_MULT mode the class is shown only for equal table values, between which the draw has no
choice. -/
theorem previewAgreesWithTheEdge : Obligations.PreviewAgreesWithTheEdge := by
  refine fun s => ⟨fsPreview_of_ne_maxMult, fun hm hshown => ?_⟩
  rw [fsPreview_maxMult hm] at hshown ⊢
  by_cases heq : multValue s.pins.adc2.toNat = multValue s.pins.adc3.toNat
  · rw [if_neg (not_not.2 heq), fsSelect_maxMult_of_eq hm heq]
  · exact absurd (if_pos heq) hshown

end Sys2Proof.Machine
end

section
/-!
PROOF. The generator and the probability gate (R150 to R162): the default step bit by bit, the draws and the two range
methods, the chance maps, the gate at the ends of the chance range, and where the chance readings matter.
-/

namespace Sys2Proof.Machine

open Sys2Proof.Config

/-! The default generator -/

theorem rngStep_fibonacci_bit (l : BitVec 16) : (rngStep .fibonacci l).1 = l.getLsbD 0 := rfl

/-- Bit 15 of the new value is the feedback (R151). -/
theorem rngStep_fibonacci_top (l : BitVec 16) :
    (rngStep .fibonacci l).2.getLsbD 15 = (l.getLsbD 0 ^^ l.getLsbD 2 ^^ l.getLsbD 3 ^^ l.getLsbD 5) := by
  refine BitVec.getLsbD_append.trans ?_
  simp [bit]

/-- Every other bit moves down one place (R151). -/
theorem rngStep_fibonacci_shifts (l : BitVec 16) {k : Nat} (hk : k < 15) :
    (rngStep .fibonacci l).2.getLsbD k = l.getLsbD (k + 1) := by
  refine BitVec.getLsbD_append.trans ?_
  simp [hk, Nat.add_comm]

/-- Settles O34: the new value is the feedback bit above the upper 15 bits of the old one. -/
theorem defaultGeneratorStep : Obligations.DefaultGeneratorStep := fun l =>
  ⟨rngStep_fibonacci_bit l, rngStep_fibonacci_top l, fun _ => rngStep_fibonacci_shifts l⟩

/-- The step loses only bit 0 of the old value, and the feedback gives it back: the other bits that enter it are kept
(R152 (b)). -/
theorem rngStep_fibonacci_injective : Function.Injective fun l => (rngStep .fibonacci l).2 := by
  intro a b (h : (rngStep .fibonacci a).2 = (rngStep .fibonacci b).2)
  have kept (k : Nat) (hk : k < 15) : a.getLsbD (k + 1) = b.getLsbD (k + 1) := by
    rw [← rngStep_fibonacci_shifts a hk, h, rngStep_fibonacci_shifts b hk]
  have feedback := rngStep_fibonacci_top a
  rw [h, rngStep_fibonacci_top b, kept 1 (by decide), kept 2 (by decide), kept 4 (by decide)] at feedback
  have lost : a.getLsbD 0 = b.getLsbD 0 := by simpa using feedback.symm
  apply BitVec.eq_of_getLsbD_eq
  intro i hi
  cases i with
  | zero => exact lost
  | succ k => exact kept k (by omega)

/-- Settles O35: the step is injective, so it is surjective on the finitely many 16-bit values. -/
theorem defaultGeneratorIsABijection : Obligations.DefaultGeneratorIsABijection :=
  ⟨fun _ _ h => rngStep_fibonacci_injective h, Finite.surjective_of_injective rngStep_fibonacci_injective, by decide⟩

/-! A draw of `n` bits -/

/-- The first bit drawn is the most significant; the rest is a draw from the state it left (R153). -/
theorem rngBits_succ (sel : RngStepSel) (n : Nat) (l : BitVec 16) :
    rngBits sel (n + 1) l = (2 ^ n * (rngStep sel l).1.toNat + (rngBits sel n (rngStep sel l).2).1,
      (rngBits sel n (rngStep sel l).2).2) := by
  rw [rngBits, rngBitsOnto, rngBitsOnto_eq, mul_zero, zero_add, mul_comm]

theorem rngBits_lt (sel : RngStepSel) (n : Nat) (l : BitVec 16) : (rngBits sel n l).1 < 2 ^ n := by
  induction n generalizing l with
  | zero => exact Nat.one_pos
  | succ n ih =>
    have rest := ih (rngStep sel l).2
    have first : 2 ^ n * (rngStep sel l).1.toNat ≤ 2 ^ n := mul_le_of_le_one_right (Nat.zero_le _) (Bool.toNat_le _)
    rw [rngBits_succ, pow_succ]
    dsimp only
    omega

/-- Settles O36: the bound is by induction on the width, the two clauses on the first bit are `rngBits_succ`. -/
theorem drawIsMostSignificantBitFirst : Obligations.DrawIsMostSignificantBitFirst := fun sel n l =>
  ⟨rngBits_lt sel n l, rngBits_zero sel l, Prod.ext_iff.1 (rngBits_succ sel n l)⟩

/-! The bounded draws -/

/-- Settles O37: the draw below the span is added to the lower bound. -/
theorem boundedDrawStaysInBounds : Obligations.BoundedDrawStaysInBounds := fun p n lo hi l h =>
  ⟨le_rngRange p n lo hi l, rngRange_le p n h l⟩

/-- Settles O38: a value of the range comes from the draw that is its distance from the lower bound. -/
theorem moduloDraw : Obligations.ModuloDraw := by
  refine ⟨fun p n lo hi l hp _ => rngRange_modulo hp n lo hi l, fun lo hi x hlo hhi h5 => ⟨x - lo, by omega, ?_⟩,
    fun x hx => ⟨x, by omega, Nat.mod_eq_of_lt (by omega)⟩⟩
  rw [Nat.mod_eq_of_lt (by omega)]
  omega

/-- The last of `k + 1` draws starts where the first `k` left the generator. -/
theorem lfsrAfterDraws_succ (sel : RngStepSel) (n k : Nat) (l : BitVec 16) :
    lfsrAfterDraws sel n (k + 1) l = (rngBits sel n (lfsrAfterDraws sel n k l)).2 := by
  induction k generalizing l with
  | zero => rfl
  | succ k ih => exact ih _

/-- The loop of R156 answers the first draw below the span, if its tries reach it. -/
theorem rejectLoop_first {sel : RngStepSel} {n span tries k : Nat} {l : BitVec 16} (hk : k < tries)
    (rejected : ∀ j, j < k → span ≤ (rngBits sel n (lfsrAfterDraws sel n j l)).1)
    (accepted : (rngBits sel n (lfsrAfterDraws sel n k l)).1 < span) :
    rejectLoop sel n span tries l = some (rngBits sel n (lfsrAfterDraws sel n k l)) := by
  induction k generalizing tries l with
  | zero =>
    obtain ⟨tries, rfl⟩ := Nat.exists_eq_succ_of_ne_zero hk.ne'
    exact if_pos accepted
  | succ k ih =>
    obtain ⟨tries, rfl⟩ := Nat.exists_eq_succ_of_ne_zero (Nat.ne_zero_of_lt hk)
    have first : ¬ (rngBits sel n l).1 < span := not_lt.2 (rejected 0 k.succ_pos)
    exact (if_neg first).trans
      (ih (Nat.lt_of_succ_lt_succ hk) (fun j hj => rejected (j + 1) (Nat.succ_lt_succ hj)) accepted)

/-- A draw by the REJECT method, if its loop ends (R156). -/
theorem rngRange_reject {p : Params} (hp : p.rangeMethod = .reject) {n lo hi : Nat} {l : BitVec 16}
    {r : Nat × BitVec 16} (h : rejectLoop p.rngStep n (hi - lo + 1) lfsrStates l = some r) :
    rngRange p n lo hi l = (lo + r.1, r.2) := by
  have drawn : drawBelow p n lo hi l = r := by simp only [drawBelow, hp, h]
  rw [rngRange, drawn]

/-- Settles O39: the loop answers the first accepted draw together with the generator's state after it. -/
theorem rejectingDrawTakesTheFirstBelowTheSpan : Obligations.RejectingDrawTakesTheFirstBelowTheSpan := by
  intro p n lo hi k l hp _ hk rejected accepted
  rw [rngRange_reject hp (rejectLoop_first hk rejected accepted), lfsrAfterDraws_succ]

/-! The chance maps -/

theorem nondecreasing_iff_isChain (l : List (BitVec 7)) : nondecreasing l = true ↔ l.IsChain (· ≤ ·) := by
  induction l using nondecreasing.induct with
  | case1 => simp [nondecreasing]
  | case2 a => simp [nondecreasing]
  | case3 a b rest ih => simp [nondecreasing, ih]

/-- What a replacement for CHANCE_MAP is by construction (R158). -/
theorem chanceTable_spec (t : ChanceTable) : t.entries.length = 1024 ∧ t.entries[0]? = some 0 ∧
    t.entries[1023]? = some 100 ∧ t.entries.Pairwise (· ≤ ·) := by
  have h := t.legal
  simp only [chanceTableLegal, Bool.and_eq_true, decide_eq_true_eq, nondecreasing_iff_isChain,
    List.isChain_iff_pairwise, and_assoc] at h
  exact h

/-- Every chance map is 0 at reading 0 and 100 at reading 1023 (R158). -/
theorem chanceMap_ends (sel : ChanceMapSel) : chanceMap sel 0 = 0 ∧ chanceMap sel 1023 = 100 := by
  cases sel with
  | scaled => decide
  | table t =>
    obtain ⟨-, first, last, -⟩ := chanceTable_spec t
    simp [chanceMap, List.getD_eq_getElem?_getD, first, last]

/-- Every chance map is non-decreasing on the readings (R158). -/
theorem chanceMap_mono (sel : ChanceMapSel) {a b : Nat} (hab : a ≤ b) (hb : b < 1024) :
    chanceMap sel a ≤ chanceMap sel b := by
  cases sel with
  | scaled =>
    simp only [chanceMap]
    gcongr
  | table t =>
    obtain ⟨len, -, -, sorted⟩ := chanceTable_spec t
    have hb' : b < t.entries.length := len ▸ hb
    have ha' : a < t.entries.length := hab.trans_lt hb'
    simp only [chanceMap, List.getD_eq_getElem _ _ ha', List.getD_eq_getElem _ _ hb', ← BitVec.le_def]
    exact sorted.rel_get_of_le (a := ⟨a, ha'⟩) (b := ⟨b, hb'⟩) hab

/-- Settles O40: a level is at most the one at the highest reading, which is 100. -/
theorem chanceMapIsMonotoneFrom0To100 : Obligations.ChanceMapIsMonotoneFrom0To100 := by
  refine ⟨fun sel a b hab hb => ⟨chanceMap_mono sel hab hb, ?_⟩, chanceMap_ends, fun _ => rfl⟩
  calc chanceMap sel b ≤ chanceMap sel 1023 := chanceMap_mono sel (Nat.le_of_lt_succ hb) (by decide)
    _ = 100 := (chanceMap_ends sel).2

/-! The gate at the ends of the chance range -/

theorem chanceLevel_eq (s : State) :
    chanceLevel s = chanceMap s.params.chanceMap (max s.pins.adc0.toNat s.pins.adc1.toNat) := rfl

/-- No draw is below level 0 (R161 (a)). -/
theorem pgResult_of_level_zero {s : State} (h : chanceLevel s = 0) : pgResult s = false := by
  simp [pgResult, gateDecision, h]

/-- Every draw is below level 100 (R161 (b)). -/
theorem pgResult_of_level_hundred {s : State} (h : chanceLevel s = 100) : pgResult s = true := by
  have draw : (gateDraw s).1 ≤ 99 := rngRange_le s.params 7 (Nat.zero_le 99) s.lfsr
  rw [pgResult, gateDecision, h, decide_eq_true_eq]
  omega

theorem chanceMap_scaled_low {r : Nat} (h : r ≤ 10) : chanceMap .scaled r = 0 := by
  simp only [chanceMap, chanceMax, adcRange]
  omega

theorem chanceMap_scaled_high {r : Nat} (h : 1014 ≤ r) : chanceMap .scaled r = 100 := by
  simp only [chanceMap, chanceMax, adcRange]
  omega

/-- The two variants that consult the gate write its decision to `gate` and show it; the generator and the other
registers may have moved before, the chance level has not (R160, R179, R180). -/
theorem exec_writes_gateDecision {i : Instr} (hi : consultsGate i = true) (s : State) :
    ∃ t u, exec i s = .next t ∧ t.gate = pgResult u ∧ t.chanceInd = pgResult u ∧ chanceLevel u = chanceLevel s := by
  have level : chanceLevel (clkCommon s) = chanceLevel s := by rw [clkCommon_eq]; rfl
  cases i with
  | clkEdgeDiv => exact ⟨_, _, execClkEdgeDiv_eq s, rfl, rfl, level⟩
  | clkEdgeMult => exact ⟨_, { clkCommon s with fdisp := .normal, pcnt := 0, out := true }, rfl, rfl, rfl, level⟩
  | clkEdgeF0 | clkEdgeF1 | clkEdgeMaxmult | nop | tmrTick | rstEdgeDiv | rstEdgeMult | rstEdgeMaxmult | modeSetDiv
  | modeSetMult | modeSetMaxmult | modeSetIgn | poll => cases hi

/-- Settles O41: the level at the two ends is 0 and 100, and a draw is in 0 to 99. -/
theorem gateAtTheEndsOfTheChanceRange : Obligations.GateAtTheEndsOfTheChanceRange := by
  intro i s hi hmap
  obtain ⟨t, u, e, gate, shown, level⟩ := exec_writes_gateDecision hi s
  rw [chanceLevel_eq s, hmap] at level
  refine ⟨t, e, shown.trans gate.symm, fun ⟨h0, h1⟩ => ?_, fun h => ?_⟩
  · rw [gate, pgResult_of_level_zero (level.trans (chanceMap_scaled_low (max_le h0 h1)))]
  · rw [gate, pgResult_of_level_hundred (level.trans (chanceMap_scaled_high (le_max_iff.2 h)))]

/-! The chance readings elsewhere -/

section
variable (a b : Reading) (s : State)

/-- The selector reads the frequency channels only (R137 to R140). -/
theorem fsSelect_withChance : fsSelect (withChance a b s) = fsSelect s := rfl

theorem fsPreview_withChance : fsPreview (withChance a b s) = fsPreview s := rfl

theorem peOnEdge_withChance (t : Word) : peOnEdge t (withChance a b s) = withChance a b (peOnEdge t s) := by
  by_cases h : s.cnt.toNat = 4
  · rw [peOnEdge_closes t s h, peOnEdge_closes t (withChance a b s) h]
    rfl
  · rw [peOnEdge_adds t s h, peOnEdge_adds t (withChance a b s) h]
    rfl

theorem clkCommon_withChance : clkCommon (withChance a b s) = withChance a b (clkCommon s) := by
  rw [clkCommon_eq, clkCommon_eq, fsSelect_withChance, withChance_now, peOnEdge_withChance]
  rfl

theorem rstCommon_withChance : rstCommon (withChance a b s) = withChance a b (rstCommon s) := by
  rw [rstCommon_eq, rstCommon_eq]
  rfl

end

/-- Settles O43: the common parts commute with a change of the chance readings, and after them only the gate reads
those. -/
theorem chanceReadingsMatterOnlyToTheGate : Obligations.ChanceReadingsMatterOnlyToTheGate := by
  intro i s a b hi
  cases i with
  | clkEdgeDiv | clkEdgeMult => cases hi
  | clkEdgeF0 | clkEdgeF1 | clkEdgeMaxmult =>
    refine ⟨_, rfl, ?_⟩
    simp only [exec, execClkEdgeF0, execClkEdgeF1, execClkEdgeMaxmult, clkCommon_withChance]
    rfl
  | rstEdgeDiv => exact ⟨_, rfl, by rw [exec, execRstEdgeDiv, rstCommon_withChance]; rfl⟩
  | rstEdgeMult | rstEdgeMaxmult => exact ⟨_, rfl, congrArg _ (rstCommon_withChance a b s)⟩
  | poll => exact ⟨_, rfl, by rw [exec, execPoll, fsPreview_withChance]; rfl⟩
  | nop | tmrTick | modeSetDiv | modeSetMult | modeSetMaxmult | modeSetIgn => exact ⟨_, rfl, rfl⟩

end Sys2Proof.Machine
end

section
/-!
PROOF. The operations of the pulse scheduler, each with its frame (R175 to R190): what every instruction writes, the
variant of CLK_EDGE that is performed, and `ST` after each instruction.
-/

namespace Sys2Proof.Machine

open Sys2Proof.Config

/-! Timer ticks, reset edges and mode changes -/

/-- The stop test is on the saturated count (R29, R183). -/
theorem pcntExceeds_pcntSucc (p : BitVec 8) (f : BitVec 5) :
    pcntExceeds (pcntSucc p) f = decide (2 * f.toNat < min (p.toNat + 1) 255) := by
  rw [pcntExceeds, pcntSucc_toNat]

theorem pcntReached_pcntSucc (p : BitVec 8) (f : BitVec 5) :
    pcntReached (pcntSucc p) f = decide (f.toNat ≤ min (p.toNat + 1) 255) := by
  rw [pcntReached, pcntSucc_toNat]

/-- Settles O15: TMR_TICK is one update of the state, whose stop test compares the saturated count. -/
theorem tmrTickCountsTogglesAndStops : Obligations.TmrTickCountsTogglesAndStops := by
  intro m s
  obtain ⟨-, -, -, words, -⟩ := operationMap
  obtain ⟨word, -⟩ := words m
  refine ⟨word, ?_⟩
  rw [exec_tmrTick, tmrTicked, pcntExceeds_pcntSucc]
  simp only [decide_eq_true_eq]
  rfl

/-- Settles O16: to the common part the variant adds the stopped timer, the cleared count and the output LOW. -/
theorem resetEdgeInDivClearsTheCount : Obligations.ResetEdgeInDivClearsTheCount := by
  refine fun s => ⟨rfl, ?_⟩
  rw [exec, execRstEdgeDiv, rstCommon_eq]
  rfl

/-- Settles O17: both variants are the common part alone. -/
theorem resetEdgeOutsideDivTouchesOnlyTheWindow : Obligations.ResetEdgeOutsideDivTouchesOnlyTheWindow := by
  refine ⟨rfl, rfl, ?_⟩
  rintro i s (rfl | rfl) <;> exact congrArg _ (rstCommon_eq s)

/-- Settles O18: each variant is one update of the state. -/
theorem modeSetWritesModeAndIndicator : Obligations.ModeSetWritesModeAndIndicator :=
  ⟨rfl, rfl, rfl, rfl, fun _ => ⟨rfl, rfl, rfl, rfl⟩⟩

/-! POLL -/

theorem displayOf_factorClass (f : BitVec 5) :
    displayOf (factorClass f) = if f = 0 then .suppressed else if f = 1 then .one else .normal := by
  unfold factorClass
  split_ifs <;> rfl

/-- Settles O19: POLL writes the display of the previewed class, which each mode takes from its table. -/
theorem pollShowsThePreviewedClass : Obligations.PollShowsThePreviewedClass := by
  intro m s shown r fa fb
  obtain ⟨-, -, -, words, -⟩ := operationMap
  obtain ⟨-, -, -, word⟩ := words m
  refine ⟨word, ?_⟩
  rw [exec, execPoll]
  cases hm : s.mode with
  | mult =>
    rw [fsPreview_of_ne_maxMult (by simp [hm]), fsSelect_mult hm, displayOf_factorClass]
    rfl
  | div =>
    rw [fsPreview_of_ne_maxMult (by simp [hm]), fsSelect_div hm, displayOf_factorClass]
    rfl
  | maxMult =>
    rw [fsPreview_maxMult hm, ite_not, apply_ite displayOf, displayOf_factorClass]
    rfl

/-! The variants of CLK_EDGE -/

/-- The timer started with a period given as a number: a period of 0 is counted as 1 (R173). -/
theorem timerStart_of_toNat {p : Word} {n : Nat} (h : p.toNat = n) (s : State) :
    timerStart p s =
      { s with tper := BitVec.ofNat 32 n, tcnt := BitVec.ofNat 32 (max 1 n), st := .emit } := by
  subst h
  rw [timerStart, atLeastOne_eq_ofNat, BitVec.ofNat_toNat, BitVec.setWidth_eq]

/-- The number of the ratchet period, for the factors of which one is computed (R180, R181, R196). -/
theorem ratchetPeriod_toNat_of_one_lt (ct : Word) {f : BitVec 5} (h : 1 < f.toNat) :
    (ratchetPeriod ct f).toNat = ct.toNat / (2 * f.toNat) :=
  ratchetPeriod_toNat ct f (by bv_omega)

/-- Settles O20: to the common part the variant adds the output LOW and the display. -/
theorem clkEdgeF0SuppressesTheCycle : Obligations.ClkEdgeF0SuppressesTheCycle := by
  intro m s
  obtain ⟨-, -, -, words, -⟩ := operationMap
  obtain ⟨-, word, -⟩ := words m
  refine ⟨word, ?_⟩
  rw [exec, execClkEdgeF0, clkCommon_eq]

/-- Settles O21: the variant starts the timer with half the estimate the common part leaves. -/
theorem clkEdgeF1PassesThrough : Obligations.ClkEdgeF1PassesThrough := by
  intro m s ct
  obtain ⟨-, -, -, words, -⟩ := operationMap
  obtain ⟨-, -, word, -⟩ := words m
  refine ⟨word, ?_⟩
  rw [exec, execClkEdgeF1, timerStart_of_toNat (halfPeriod_toNat _), clkCommon_eq]

/-- Settles O22: the gate draws from the generator as the selector left it, and the divider's test is on the saturated
count and the factor just selected. -/
theorem clkEdgeDivCountsEdges : Obligations.ClkEdgeDivCountsEdges := by
  intro s d g p hit
  have reached : pcntReached (pcntSucc s.pcnt) (fsSelect s).1 = decide ((fsSelect s).1.toNat ≤ p) :=
    pcntReached_pcntSucc _ _
  refine ⟨rfl, (execClkEdgeDiv_eq s).trans ?_⟩
  simp only [clkCommon_eq, pgDecide, reached]
  rfl

/-- Settles O23: the gate draws from the generator as the selector left it, and its decision picks the period. -/
theorem clkEdgeMultStartsTheRatchet : Obligations.ClkEdgeMultStartsTheRatchet := by
  intro s hf ct d g period
  have hperiod : (if g then ratchetPeriod ct (fsSelect s).1 else halfPeriod ct).toNat = period := by
    rw [apply_ite BitVec.toNat, ratchetPeriod_toNat_of_one_lt ct hf, halfPeriod_toNat]
  refine ⟨rfl, ?_⟩
  rw [exec, execClkEdgeMult, clkCommon_eq]
  exact congrArg _ (timerStart_of_toNat hperiod _)

/-- Settles O24: the variant starts the timer with the ratchet period of the estimate and the factor the common part
leaves. -/
theorem clkEdgeMaxmultSkipsTheGate : Obligations.ClkEdgeMaxmultSkipsTheGate := by
  intro s hf ct period
  refine ⟨rfl, ?_⟩
  rw [exec, execClkEdgeMaxmult, clkCommon_eq]
  exact congrArg _ (timerStart_of_toNat (ratchetPeriod_toNat_of_one_lt ct hf) _)

/-! The state machine -/

/-- Settles O26: the common part of CLK_EDGE stops the timer, three variants start it again, and besides TMR_TICK and
RST_EDGE.DIV no other instruction writes `ST`. -/
theorem schedulerStateTransitions : Obligations.SchedulerStateTransitions := by
  intro i s
  cases i with
  | tmrTick m => exact ⟨_, rfl, by simp [pcntExceeds]⟩
  | clkEdgeDiv => exact ⟨_, execClkEdgeDiv_eq s, by simp⟩
  | clkEdgeF0 | rstEdgeMult | rstEdgeMaxmult => exact ⟨_, rfl, by simp⟩
  | clkEdgeF1 | clkEdgeMult | clkEdgeMaxmult | rstEdgeDiv | modeSetDiv | modeSetMult | modeSetMaxmult | modeSetIgn
  | poll | nop => exact ⟨_, rfl, rfl⟩

/-- The variant of CLK_EDGE by the factor's number, the tests on the factor first (R176). -/
theorem clkVariant_eq (f : BitVec 5) (m : Mode) : clkVariant f m =
    if f.toNat = 0 then .clkEdgeF0 m.bits
    else if f.toNat = 1 then .clkEdgeF1 m.bits
    else if m = .div then .clkEdgeDiv
    else if m = .mult then .clkEdgeMult
    else .clkEdgeMaxmult := by
  have h0 : f = 0 ↔ f.toNat = 0 := BitVec.toNat_inj.symm
  have h1 : f = 1 ↔ f.toNat = 1 := BitVec.toNat_inj.symm
  simp only [clkVariant, h0, h1]
  cases m <;> rfl

theorem isClkEdge_clkVariant (f : BitVec 5) (m : Mode) : isClkEdge (clkVariant f m) = true := by
  rw [clkVariant_eq]
  split_ifs <;> rfl

/-- After a variant of CLK_EDGE the timer runs exactly if the variant started it (R175, R176). -/
theorem exec_clkVariant_st {f : BitVec 5} {m : Mode} {s t : State} (h : exec (clkVariant f m) s = .next t) :
    t.st = if f.toNat = 0 ∨ (f.toNat ≠ 1 ∧ m = .div) then .idle else .emit := by
  obtain ⟨u, e, hst⟩ := schedulerStateTransitions (clkVariant f m) s
  cases h.symm.trans e
  rw [hst, clkVariant_eq]
  by_cases h0 : f.toNat = 0
  · simp [h0]
  · by_cases h1 : f.toNat = 1
    · simp [h1]
    · cases m <;> simp [h0, h1]

/-- Settles O25: the dispatcher picks the variant; it feeds the estimator once, writes the selection, and leaves `ST` as
the state machine says. -/
theorem clkEdgeCommonPartAndVariant : Obligations.ClkEdgeCommonPartAndVariant := by
  intro s f i
  have hi : i = clkVariant f s.mode := (clkVariant_eq f s.mode).symm
  have hclk : isClkEdge i = true := hi ▸ isClkEdge_clkVariant f s.mode
  refine ⟨by rw [formWord, opw_op]; rfl, by rw [performWord_formWord, hi]; rfl, ?_⟩
  obtain ⟨t, e, factor, lfsr⟩ := exec_clkEdge_writes_selection hclk s
  obtain ⟨u, e', lastTs, sum, cnt, cycleTime⟩ := exec_clkEdge_feeds_estimator hclk s
  cases e.symm.trans e'
  exact ⟨t, e, factor, lastTs.trans (peOnEdge_lastTs s.now s), sum, cnt, cycleTime,
    exec_clkVariant_st (hi ▸ e), lfsr⟩

end Sys2Proof.Machine
end

section
/-!
PROOF. The step rule (R170, R171, R192): a step is the operations of its requests one after another between the start of
the tick and its end, and it always completes.
-/

namespace Sys2Proof.Machine

open Sys2Proof.Config

/-! A step completes -/

/-- Settles O10: a tick's operations complete, and a hardware reset does. -/
theorem everyStepGoesOn : Obligations.EveryStepGoesOn := by
  intro s
  cases hin : nextInput s with
  | tick stim =>
    obtain ⟨u, -, e, -⟩ := tick_completes stim (takeInput s)
    exact ⟨endTick u, (step_tick hin).trans e⟩
  | hardReset straps => exact ⟨_, step_hardReset hin⟩

/-! The decoded instruction -/

/-- A sequence of operations starts with the instruction its first word decodes to (R171). -/
theorem performAll_cons_of_decode {op : Op} {s : State} {i : Instr} (h : decode (formWord op s) = .ok i)
    (rest : List Op) : performAll (op :: rest) s = andThen (exec i s) (performAll rest) := by
  rw [performAll, performWord_of_decode h]

/-- A tick with one operation performs its instruction between the start of the tick and its end (R170). -/
theorem tick_single {stim : Stim} {s : State} {op : Op} {i : Instr} (hops : tickOps stim s = [op])
    (hi : decode (formWord op (startTick stim s)) = .ok i) :
    tick stim s = andThen (exec i (startTick stim s)) fun t => .next (endTick t) := by
  rw [tick, hops, performAll_cons_of_decode hi, andThen_assoc]
  rfl

/-- Settles O7: the dispatcher performs what it decodes, operation by operation. -/
theorem stepRunsTheDecodedInstruction : Obligations.StepRunsTheDecodedInstruction := by
  refine ⟨fun s stim op i hin hops hi => ?_, fun op rest s i hi => performAll_cons_of_decode hi rest⟩
  rw [step_tick hin, tick_single hops hi]

/-! The start of a step and its requests -/

/-- The countdown as one update: nothing while idle, a reload on a fire, one less otherwise (R172). -/
theorem countTimer_eq (s : State) : countTimer s = { s with
    tcnt := if s.st = .emit then (if timerFires s then atLeastOne s.tper else s.tcnt - 1) else s.tcnt } := by
  unfold countTimer
  split
  · next h => rw [if_neg (by simp [h])]
  · next h => rw [if_pos h]

section
variable (stim : Stim) (s : State)

/-- The request lines of a step, from the state before its input is taken (R88, R170). -/
theorem requests_takeInput : requests { takeInput s with pins := stim } =
    { tmr := timerFires s, rst := risingEdge stim.resetIn s.prevRst, clk := risingEdge stim.clockIn s.prevClk,
      modeSet := stim.modeWe, poll := stim.pollReq } := by
  simp only [requests, timerFires, takeInput_st, takeInput_tcnt, takeInput_prevRst, takeInput_prevClk]

/-- The state the first operation of a step sees: the ports sampled, and a running timer counted or reloaded (R170). -/
theorem startTick_takeInput : startTick stim (takeInput s) = { takeInput s with
    pins := stim
    tcnt := if s.st = .emit then
        (if s.st = .emit ∧ s.tcnt.toNat ≤ 1 then BitVec.ofNat 32 (max 1 s.tper.toNat) else s.tcnt - 1)
      else s.tcnt } := by
  rw [startTick, countTimer_eq]
  simp only [timerFires_iff, takeInput_st, takeInput_tper, takeInput_tcnt, atLeastOne_eq_ofNat]

end

/-- The end of a step takes the samples and `now` from where the start of the tick put them (R170). -/
theorem endTick_eq {stim : Stim} {s u : State} (h : SameSurroundings (startTick stim (takeInput s)) u) :
    endTick u = { u with prevClk := stim.clockIn, prevRst := stim.resetIn, now := s.now + 1 } := by
  rw [endTick, h.pins, h.now, startTick_pins, startTick_now, takeInput_now]

/-! The operations of a step, one after another -/

theorem performWord_nop (s : State) : performWord (formWord .nop s) s = .next s :=
  performWord_formWord .nop s

theorem andThen_pure (r : Result) : andThen r .next = r := by cases r <;> rfl

/-- An operation is performed if it is requested (R171). -/
theorem performAll_optional (b : Bool) (op : Op) (s : State) :
    performAll (if b then [op] else []) s = if b = true then performWord (formWord op s) s else .next s := by
  cases b with
  | false => rfl
  | true => exact andThen_pure _

/-- The operations of a tick in the order of R171, each on the state the one before it left. -/
theorem performAll_requestedOps_eq (r : Requests) (s : State) :
    performAll (requestedOps r) s =
      andThen (if r.tmr = true then performWord (formWord .tmrTick s) s else .next s) fun s =>
      andThen (if r.rst = true then performWord (formWord .rstEdge s) s else .next s) fun s =>
      andThen (if r.clk = true then performWord (formWord .clkEdge s) s else .next s) fun s =>
      andThen (if r.modeSet = true then performWord (formWord .modeSet s) s else .next s) fun s =>
      if r.poll = true then performWord (formWord .poll s) s else .next s := by
  have append (a b : List Op) : performAll (a ++ b) = fun s => andThen (performAll a s) (performAll b) :=
    funext (performAll_append a b)
  have optional (b : Bool) (op : Op) : performAll (if b then [op] else []) =
      fun s => if b = true then performWord (formWord op s) s else .next s := funext (performAll_optional b op)
  rw [performAll_requestedOps, opsAfterTimer]
  simp only [append, optional, andThen_assoc]

/-- Settles O9: the step is the chain of the requested operations; the NOP of a tick without one writes nothing, and no
operation writes what the end of the tick reads. -/
theorem stepFollowsTheStepRule : Obligations.StepFollowsTheStepRule := by
  intro s stim hin clkEdge rstEdge fire s0 s1
  refine ⟨?_, everyStepGoesOn s⟩
  have start : startTick stim (takeInput s) = s1 := by
    rw [startTick_takeInput]
    simp only [s1, s0, fire]
    split <;> simp
  obtain ⟨u, hops, e, hu⟩ := tick_completes stim (takeInput s)
  rw [start, tickOps, performAll_requestedOps_eq] at hops
  simp only [requests_takeInput, timerFires_iff, risingEdge_eq_true] at hops
  have ended := congrArg (andThen · fun t =>
    .next { t with prevClk := stim.clockIn, prevRst := stim.resetIn, now := s.now + 1 }) hops
  rw [step_tick hin, e, endTick_eq hu]
  simp only [performWord_nop, ite_self, andThen_next]
  simp only [andThen_assoc, andThen_next] at ended
  exact ended.symm

/-! A tick without a request -/

/-- Settles O11: the only operation of the tick is NOP, so its start and its end are all that is written. -/
theorem idleTickMakesOnlyTheStepsOwnWrites : Obligations.IdleTickMakesOnlyTheStepsOwnWrites := by
  refine ⟨rfl, fun _ => rfl, fun s stim hin hreq => ?_⟩
  have hops : tickOps stim (takeInput s) = [.nop] := by rw [tickOps, hreq]; rfl
  have idle : timerFires s = false := congrArg Requests.tmr ((requests_takeInput stim s).symm.trans hreq)
  have hfire : ¬ (s.st = .emit ∧ s.tcnt.toNat ≤ 1) := by simp [← timerFires_iff, idle]
  rw [step_tick hin, tick_single hops (decode_formWord _ _), startTick_takeInput, if_neg hfire, ← takeInput_now s]
  rfl

end Sys2Proof.Machine
end

section
/-!
PROOF. An emission over the ticks of a run (R172, R173, R193): what the timer makes of it in one tick, in one period and
in several.
-/

namespace Sys2Proof.Machine

open Sys2Proof.Config

/-! The timer's part of a tick, by cases -/

theorem timerPart_of_idle {s : State} (h : s.st = .idle) : timerPart s = s := by
  have hst : ¬ s.st = .emit := by simp [h]
  have hfire : ¬ timerFires s = true := fun hf => hst ((timerFires_iff s).1 hf).1
  rw [timerPart, if_neg hfire, countTimer_eq, if_neg hst]

theorem timerPart_of_counting {s : State} (h : s.st = .emit) (hlate : 1 < s.tcnt.toNat) :
    timerPart s = { s with tcnt := s.tcnt - 1 } := by
  have hfire : ¬ timerFires s = true := by rw [timerFires_iff]; omega
  rw [timerPart, if_neg hfire, countTimer_eq, if_pos h, if_neg hfire]

/-- A fire: the timer is reloaded, then TMR_TICK is performed (R172, R183). -/
def fired (s : State) : State := tmrTicked { s with tcnt := atLeastOne s.tper }

theorem timerPart_of_firing {s : State} (h : s.st = .emit) (hdue : s.tcnt.toNat ≤ 1) : timerPart s = fired s := by
  have hfire : timerFires s = true := (timerFires_iff s).2 ⟨h, hdue⟩
  rw [timerPart, if_pos hfire, countTimer_eq, if_pos h, if_pos hfire, fired]

theorem SameEmission.tmrTicked {s t : State} (h : SameEmission s t) : SameEmission (tmrTicked s) (tmrTicked t) :=
  { h with
    st := by simp [Machine.tmrTicked, h.st, h.pcnt, h.factor]
    pcnt := congrArg pcntSucc h.pcnt
    out := congrArg (!·) h.out }

/-- A fire forgets the timer's counter. -/
theorem SameEmission.fired {s t : State} {c : Word} (h : SameEmission { s with tcnt := c } t) :
    SameEmission (fired s) (fired t) :=
  SameEmission.tmrTicked { h with tcnt := congrArg atLeastOne h.tper }

/-- What the timer does depends on the registers of the emission alone. -/
theorem SameEmission.timerPart {s t : State} (h : SameEmission s t) : SameEmission (timerPart s) (timerPart t) := by
  have hfire : timerFires t = timerFires s := by rw [timerFires, timerFires, h.st, h.tcnt]
  have count : SameEmission (countTimer s) (countTimer t) := by
    rw [countTimer_eq, countTimer_eq, hfire]
    exact { h with tcnt := by simp only [h.st, h.tcnt, h.tper] }
  rw [Machine.timerPart, Machine.timerPart, hfire]
  cases timerFires s with
  | false => exact count
  | true => exact count.tmrTicked

theorem takeInput_sameEmission (s : State) : SameEmission s (takeInput s) := by
  constructor
  · constructor <;> simp
  all_goals simp

/-- A step in which neither CLK_EDGE nor RST_EDGE.DIV is performed leaves an emission as the timer does. -/
theorem step_leaves_emission {stim : Stim} {s : State} (hin : nextInput s = .tick stim)
    (h : leavesEmission stim s = true) : ∃ t, step s = .next t ∧ SameEmission (timerPart s) t := by
  obtain ⟨t, e, ht⟩ := tick_leaves_emission (stim := stim) (s := takeInput s) (by simpa [leavesEmission] using h)
  exact ⟨t, (step_tick hin).trans e, (takeInput_sameEmission s).timerPart.trans ht⟩

/-! Runs -/

/-- `n` steps, with the outcome type of `step` for the sequencing of outcomes. -/
def runSteps (n : Nat) (s : State) : Result := Host.Core.run Sys2Proof.core n s

theorem runSteps_succ (n : Nat) (s : State) : runSteps (n + 1) s = andThen (step s) (runSteps n) := by
  obtain ⟨t, e⟩ := everyStepGoesOn s
  have e' : Host.Core.step Sys2Proof.core s = .next t := e
  rw [e, andThen_next, runSteps]
  simp only [Host.Core.run, e']
  rfl

theorem runSteps_succ_of_step {s t : State} (h : step s = .next t) (n : Nat) :
    runSteps (n + 1) s = runSteps n t := by
  rw [runSteps_succ, h, andThen_next]

theorem runSteps_add (m n : Nat) (s : State) : runSteps (m + n) s =
    andThen (runSteps m s) (runSteps n) := by
  induction m generalizing s with
  | zero => rw [Nat.zero_add]; rfl
  | succ m ih =>
    rw [Nat.add_right_comm, runSteps_succ, runSteps_succ, andThen_assoc]
    exact congrArg (andThen _) (funext ih)

/-- An undisturbed stretch of a run is undisturbed in its first part and, from where that leads, in the rest. -/
theorem undisturbed_add {m n : Nat} {s : State} (h : undisturbed (m + n) s = true) :
    undisturbed m s = true ∧ ∀ t, runSteps m s = .next t → undisturbed n t = true := by
  induction m generalizing s with
  | zero => exact ⟨rfl, fun t e => by cases e; rwa [Nat.zero_add] at h⟩
  | succ m ih =>
    rw [Nat.add_right_comm, undisturbed_succ] at h
    obtain ⟨stim, u, hin, hleaves, e, hrest⟩ := h
    obtain ⟨first, rest⟩ := ih hrest
    refine ⟨(undisturbed_succ m s).2 ⟨stim, u, hin, hleaves, e, first⟩, fun t et => rest t ?_⟩
    rwa [runSteps_succ_of_step e] at et

/-! The periods of an emission -/

/-- A running timer fires when its counter has run out (R172). -/
theorem run_to_fire {m : Nat} {s : State} (hst : s.st = .emit) (htcnt : s.tcnt.toNat = m + 1)
    (h : undisturbed (m + 1) s = true) :
    ∃ t, runSteps (m + 1) s = .next t ∧ SameEmission (fired s) t := by
  induction m generalizing s with
  | zero =>
    obtain ⟨stim, t, hin, hleaves, e, -⟩ := (undisturbed_succ 0 s).1 h
    obtain ⟨t', e', ht⟩ := step_leaves_emission hin hleaves
    cases e.symm.trans e'
    rw [timerPart_of_firing hst htcnt.le] at ht
    exact ⟨t, runSteps_succ_of_step e 0, ht⟩
  | succ m ih =>
    obtain ⟨stim, t, hin, hleaves, e, hrest⟩ := (undisturbed_succ (m + 1) s).1 h
    obtain ⟨t', e', ht⟩ := step_leaves_emission hin hleaves
    cases e.symm.trans e'
    rw [timerPart_of_counting hst (by omega)] at ht
    have hcount : t.tcnt.toNat = m + 1 := by rw [ht.tcnt]; bv_omega
    obtain ⟨u, eu, hu⟩ := ih (ht.st.trans hst) hcount hrest
    exact ⟨u, (runSteps_succ_of_step e (m + 1)).trans eu, ht.fired.trans hu⟩

/-- The emission that starts in `s`, right after its `k`-th fire (R193). -/
structure AtFire (s : State) (k : Nat) (t : State) : Prop where
  factor : t.factor = s.factor
  tper : t.tper = s.tper
  tcnt : t.tcnt = atLeastOne s.tper
  pcnt : t.pcnt.toNat = k
  out : t.out = decide (k % 2 = 0)
  st : t.st = if k = 2 * s.factor.toNat + 1 then .idle else .emit

/-- A fire of a running emission counts, toggles, and stops the timer if it is the `2f + 1`-th; the count is far below
its saturation (R183). -/
theorem AtFire.fired {s t u : State} {k : Nat} (h : AtFire s k t) (hk : k < 2 * s.factor.toNat + 1)
    (hu : SameEmission (fired t) u) : AtFire s (k + 1) u where
  factor := hu.factor.trans h.factor
  tper := hu.tper.trans h.tper
  tcnt := hu.tcnt.trans (congrArg atLeastOne h.tper)
  pcnt := by
    have hf := s.factor.isLt
    have hpcnt : u.pcnt = pcntSucc t.pcnt := hu.pcnt
    rw [hpcnt, pcntSucc_toNat, h.pcnt]
    omega
  out := by
    have hout : u.out = !t.out := hu.out
    rw [hout, h.out, ← decide_not, decide_eq_decide]
    omega
  st := by
    have hf := s.factor.isLt
    have hst : u.st = if pcntExceeds (pcntSucc t.pcnt) t.factor then .idle else t.st := hu.st
    rw [hst, h.st, if_neg hk.ne, pcntExceeds_pcntSucc, h.factor, h.pcnt]
    simp only [decide_eq_true_eq]
    refine if_congr ?_ rfl rfl
    omega

/-- In an undisturbed run a fire comes after every period, up to the one that stops the timer. -/
theorem run_periods {s : State} (start : AtFire s 0 s) {k : Nat} (hk : k ≤ 2 * s.factor.toNat + 1)
    (h : undisturbed (k * max 1 s.tper.toNat) s = true) :
    ∃ t, runSteps (k * max 1 s.tper.toNat) s = .next t ∧ AtFire s k t := by
  obtain ⟨m, hm⟩ : ∃ m, max 1 s.tper.toNat = m + 1 := ⟨max 1 s.tper.toNat - 1, by omega⟩
  rw [hm] at h ⊢
  induction k with
  | zero => exact ⟨s, by rw [Nat.zero_mul]; rfl, start⟩
  | succ k ih =>
    rw [Nat.succ_mul] at h ⊢
    obtain ⟨first, last⟩ := undisturbed_add h
    obtain ⟨t, et, ht⟩ := ih (by omega) first
    have running : t.st = .emit := by rw [ht.st, if_neg (by omega)]
    have full : t.tcnt.toNat = m + 1 := by rw [ht.tcnt, atLeastOne_toNat, hm]
    obtain ⟨u, eu, hu⟩ := run_to_fire running full (last t et)
    exact ⟨u, by rw [runSteps_add, et, andThen_next, eu], ht.fired hk hu⟩

/-- Settles O57: the state a starting CLK_EDGE leaves is the emission's state before its first fire. -/
theorem emissionTimeline : Obligations.EmissionTimeline := by
  intro s k hst hpcnt hout htcnt hf hk hle h
  have start : AtFire s 0 s :=
    { factor := rfl
      tper := rfl
      tcnt := BitVec.eq_of_toNat_eq (htcnt.trans (atLeastOne_toNat s.tper).symm)
      pcnt := by rw [hpcnt]; rfl
      out := hout
      st := hst.trans (if_neg (by omega)).symm }
  obtain ⟨t, e, ht⟩ := run_periods start hle h
  exact ⟨t, e, ht.pcnt, ht.out, ht.st, by rw [ht.tcnt, atLeastOne_toNat]⟩

end Sys2Proof.Machine
end

section
/-!
PROOF. Clock edges and the rest of a tick: a tick's operations after the timer (R171), an idle scheduler without a clock
edge (R191), and the divider (R179, R194), on the operation alone and over the ticks of a run.
-/

namespace Sys2Proof.Machine

open Sys2Proof.Config

/-! The edges of a tick -/

/-- The edges of a tick: RST_EDGE, then CLK_EDGE, each if requested (R171). -/
def performEdges (r : Requests) (s : State) : Result :=
  andThen (if r.rst = true then exec (dispatched .rstEdge s) s else .next s) fun s =>
    if r.clk = true then exec (dispatched .clkEdge s) s else .next s

theorem performEdges_rst {r : Requests} (hrst : r.rst = true) (hclk : r.clk = false) (s : State) :
    performEdges r s = exec (dispatched .rstEdge s) s := by
  simp only [performEdges, hrst, hclk, if_true, Bool.false_eq_true, if_false, andThen_pure]

theorem performEdges_clk {r : Requests} (hrst : r.rst = false) (hclk : r.clk = true) (s : State) :
    performEdges r s = exec (dispatched .clkEdge s) s := by
  simp only [performEdges, hrst, hclk, if_true, Bool.false_eq_true, if_false, andThen_next]

/-- After the timer a tick performs its edges, and then MODE_SET and POLL. -/
theorem performAll_opsAfterTimer (r : Requests) (s : State) :
    performAll (opsAfterTimer r) s =
      andThen (performEdges r s) (performAll (opsAfterTimer { r with rst := false, clk := false })) := by
  simp only [performEdges, ← performWord_formWord, ← performAll_optional, andThen_assoc, opsAfterTimer,
    List.append_assoc, performAll_append]
  exact congrArg (andThen _) (funext fun _ => performAll_append _ _ _)

/-- MODE_SET and POLL leave the emission (R76). -/
theorem opsAfterEdges_keep_emission (r : Requests) (s : State) :
    ∃ t, performAll (opsAfterTimer { r with rst := false, clk := false }) s = .next t ∧ SameEmission s t :=
  opsAfterTimer_keep_emission rfl fun h => nomatch h

theorem endTick_sameEmission (s : State) : SameEmission s (endTick s) :=
  ⟨⟨rfl, rfl, rfl, rfl, rfl, rfl⟩, rfl, rfl, rfl, rfl⟩

/-- A step of an idle scheduler leaves the emission as its edges do on the sampled state. -/
theorem step_of_idle {stim : Stim} {s u : State} (hin : nextInput s = .tick stim) (hst : s.st = .idle)
    (hu : performEdges (requests { takeInput s with pins := stim }) { takeInput s with pins := stim } = .next u) :
    ∃ t, step s = .next t ∧ SameEmission u t := by
  have idle : timerPart (takeInput s) = takeInput s := timerPart_of_idle ((takeInput_st s).trans hst)
  obtain ⟨t, e, ht⟩ := opsAfterEdges_keep_emission (requests { takeInput s with pins := stim }) u
  refine ⟨endTick t, ?_, ht.trans (endTick_sameEmission t)⟩
  rw [step_tick hin, tick_eq_timerPart, idle, performAll_opsAfterTimer, hu, andThen_next, e, andThen_next]

/-- An idle scheduler without an edge that writes an emission register. -/
theorem step_of_idle_of_leavesEmission {stim : Stim} {s : State} (hin : nextInput s = .tick stim) (hst : s.st = .idle)
    (h : leavesEmission stim s = true) : ∃ t, step s = .next t ∧ SameEmission s t := by
  obtain ⟨t, e, ht⟩ := step_leaves_emission hin h
  rw [timerPart_of_idle hst] at ht
  exact ⟨t, e, ht⟩

/-- Settles O55: without a clock edge only RST_EDGE.DIV can write an emission register of an idle scheduler. -/
theorem noClockLeavesTheOutputHeld : Obligations.NoClockLeavesTheOutputHeld := by
  intro s stim hin hst hclk
  by_cases hrst : stim.resetIn = true ∧ s.prevRst = false ∧ s.mode = .div
  · obtain ⟨hreset, hprev, hm⟩ := hrst
    have hedge : risingEdge stim.resetIn s.prevRst = true := (risingEdge_eq_true _ _).2 ⟨hreset, hprev⟩
    have hnone : risingEdge stim.clockIn s.prevClk = false := by
      rcases hclk with h | h <;> simp [risingEdge, h]
    have picked : dispatched .rstEdge { takeInput s with pins := stim } = .rstEdgeDiv := by
      rw [dispatched, takeInput_mode, hm, rstVariant]
    obtain ⟨-, reset⟩ := resetEdgeInDivClearsTheCount { takeInput s with pins := stim }
    have edges := performEdges_rst (r := requests { takeInput s with pins := stim }) (by rw [requests_takeInput, hedge])
      (by rw [requests_takeInput, hnone]) { takeInput s with pins := stim }
    rw [picked, reset] at edges
    obtain ⟨t, e, ht⟩ := step_of_idle hin hst edges
    exact ⟨t, e, ht.st, by rw [if_pos ⟨hreset, hprev, hm⟩, ht.out]⟩
  · have hleaves : leavesEmission stim s = true := by
      refine (leavesEmission_iff stim s).2 ⟨hclk, ?_⟩
      simpa [imp_iff_not_or] using hrst
    obtain ⟨t, e, ht⟩ := step_of_idle_of_leavesEmission hin hst hleaves
    exact ⟨t, e, ht.st.trans hst, by rw [if_neg hrst, ht.out]⟩

/-! The divider's count -/

/-- A count modulo `f` moves up by one, or back to 0 when it reaches `f`, which it does at the multiples. -/
theorem succ_mod_cases {f : Nat} (hf : 1 < f) (e : Nat) :
    (f ∣ e + 1 ↔ f ≤ e % f + 1) ∧ (e + 1) % f = if f ≤ e % f + 1 then 0 else e % f + 1 := by
  have hlt : e % f < f := Nat.mod_lt e (by omega)
  have hmod : (e + 1) % f = if f ≤ e % f + 1 then 0 else e % f + 1 := by
    rw [Nat.add_mod_eq_ite, Nat.mod_eq_of_lt hf]
    split <;> omega
  refine ⟨?_, hmod⟩
  rw [Nat.dvd_iff_mod_eq_zero, hmod]
  by_cases hwrap : f ≤ e % f + 1 <;> simp [hwrap]

/-- The divider in DIV mode after `e` clock edges with the factor `f` and the gate true, counted from the count 0
(R194). -/
structure DividerAt (f e : Nat) (s : State) : Prop where
  mode : s.mode = .div
  pcnt : s.pcnt.toNat = e % f
  out : 1 ≤ e → (s.out = true ↔ f ∣ e)

theorem dividerAt_zero (f : Nat) {s : State} (hm : s.mode = .div) (hpcnt : s.pcnt = 0) : DividerAt f 0 s :=
  ⟨hm, by simp [hpcnt], fun h => absurd h (by decide)⟩

theorem DividerAt.of_sameEmission {f e : Nat} {s t : State} (h : DividerAt f e s) (ht : SameEmission s t)
    (hm : t.mode = .div) : DividerAt f e t :=
  ⟨hm, ht.pcnt ▸ h.pcnt, ht.out ▸ h.out⟩

/-- One edge of the divider with the gate true: the selector does not draw in DIV mode, so the gate's draw is the one of
the state before; the count is below the factor, hence far below its saturation (R179). -/
theorem exec_clkEdgeDiv_counts {f e : Nat} {s : State} (h : DividerAt f e s) (hf : 1 < f)
    (hsel : (fsSelect s).1.toNat = f) (hgate : pgResult s = true) :
    ∃ t, exec .clkEdgeDiv s = .next t ∧ t.st = .idle ∧ DividerAt f (e + 1) t := by
  obtain ⟨-, edge⟩ := clkEdgeDivCountsEdges s
  have gate : decide ((rngRange s.params 7 0 99 (fsSelect s).2).1 <
      chanceMap s.params.chanceMap (max s.pins.adc0.toNat s.pins.adc1.toNat)) = true := by
    rw [fsSelect_lfsr (by simp [h.mode])]
    exact hgate
  obtain ⟨hdvd, hmod⟩ := succ_mod_cases hf e
  have hlt : e % f < f := Nat.mod_lt e (by omega)
  have hbound := (fsSelect s).1.isLt
  have count : min (s.pcnt.toNat + 1) 255 = e % f + 1 := by rw [h.pcnt]; omega
  simp only [gate, hsel, count, Bool.true_and, decide_eq_true_eq] at edge
  refine ⟨_, edge, rfl, h.mode, ?_, fun _ => ?_⟩
  · rw [hmod]
    dsimp only
    split
    · rfl
    · rw [BitVec.toNat_ofNat, Nat.mod_eq_of_lt (by omega)]
  · rw [hdvd, decide_eq_true_eq]

/-! The operation repeated -/

theorem chanceLevel_le (s : State) : chanceLevel s ≤ 100 := by
  obtain ⟨bounded, -, -⟩ := chanceMapIsMonotoneFrom0To100
  have hlt : max s.pins.adc0.toNat s.pins.adc1.toNat < 1024 := max_lt s.pins.adc0.isLt s.pins.adc1.isLt
  exact (bounded s.params.chanceMap _ _ le_rfl hlt).2

/-- On the same sampled ports in DIV mode, every edge selects the same factor at the same chance level. -/
theorem execTimes_clkEdgeDiv_counts {f : Nat} {s : State} (h : DividerAt f 0 s) (hf : 1 < f)
    (hsel : (fsSelect s).1.toNat = f) (hlevel : 100 ≤ chanceLevel s) (n : Nat) :
    ∃ t, execTimes .clkEdgeDiv n s = .next t ∧ SameSurroundings s t ∧ DividerAt f n t := by
  induction n with
  | zero => exact ⟨s, rfl, .refl s, h⟩
  | succ n ih =>
    obtain ⟨t, et, same, ht⟩ := ih
    have sel : (fsSelect t).1.toNat = f := by
      rw [fsSelect_div ht.mode, same.pins, ← hsel, fsSelect_div h.mode]
    have level : chanceLevel t = 100 := by
      refine le_antisymm (chanceLevel_le t) ?_
      rwa [chanceLevel_eq, same.params, same.pins, ← chanceLevel_eq]
    obtain ⟨u, eu, -, hu⟩ := exec_clkEdgeDiv_counts ht hf sel (pgResult_of_level_hundred level)
    exact ⟨u, by rw [execTimes, et, andThen_next, eu], same.trans (exec_surroundings eu), hu⟩

/-- Settles O58: `n` edges of the divider. -/
theorem dividerSequence : Obligations.DividerSequence := by
  intro s n hm hpcnt hf hlevel hn
  obtain ⟨t, e, -, ht⟩ := execTimes_clkEdgeDiv_counts (dividerAt_zero _ hm hpcnt) hf rfl hlevel n
  exact ⟨t, e, ht.pcnt, ht.out hn⟩

/-! The ticks of a run -/

theorem dividerTick_iff (f : Nat) (stim : Stim) (s : State) : dividerTick f stim s = true ↔
    risingEdge stim.resetIn s.prevRst = false ∧ (stim.modeWe = false ∨ stim.modeIn = 0 ∨ stim.modeIn = 3) ∧
      (risingEdge stim.clockIn s.prevClk = true →
        (fsSelect { s with pins := stim }).1.toNat = f ∧ pgResult { s with pins := stim } = true) := by
  simp [dividerTick, and_assoc, imp_iff_not_or]

/-- A tick that requests no mode but DIV keeps DIV mode (R188, R189). -/
theorem step_keeps_div {stim : Stim} {s t : State} (hin : nextInput s = .tick stim)
    (hset : stim.modeWe = false ∨ stim.modeIn = 0 ∨ stim.modeIn = 3) (hm : s.mode = .div) (e : step s = .next t) :
    t.mode = .div := by
  obtain ⟨u, e', hmode⟩ := onlyModeSetChangesTheMode s stim hin
  cases e.symm.trans e'
  rw [hmode, hm]
  rcases hset with h | h | h <;> simp [h]

/-- The gate's decision depends on the sampled ports, the parameters and the generator alone (R160). -/
theorem pgResult_congr {s t : State} (hp : s.pins = t.pins) (hq : s.params = t.params) (hl : s.lfsr = t.lfsr) :
    pgResult s = pgResult t := by
  rw [pgResult, pgResult, gateDraw, gateDraw, chanceLevel_eq, chanceLevel_eq, hp, hq, hl]

theorem fsSelect_takeInput (stim : Stim) (s : State) :
    fsSelect { takeInput s with pins := stim } = fsSelect { s with pins := stim } :=
  fsSelect_congr (takeInput_mode s) rfl (takeInput_params s) (takeInput_lfsr s)

theorem pgResult_takeInput (stim : Stim) (s : State) :
    pgResult { takeInput s with pins := stim } = pgResult { s with pins := stim } :=
  pgResult_congr rfl (takeInput_params s) (takeInput_lfsr s)

/-- A tick of R194's setting counts its clock edge, if it has one. -/
theorem step_of_dividerTick {f e : Nat} {stim : Stim} {s : State} (hin : nextInput s = .tick stim)
    (htick : dividerTick f stim s = true) (hf : 1 < f) (hst : s.st = .idle) (h : DividerAt f e s) :
    ∃ t, step s = .next t ∧ t.st = .idle ∧ DividerAt f (e + (risingEdge stim.clockIn s.prevClk).toNat) t := by
  obtain ⟨noRst, hset, hedge⟩ := (dividerTick_iff f stim s).1 htick
  cases hclk : risingEdge stim.clockIn s.prevClk with
  | false =>
    have hleaves : leavesEmission stim s = true := by simp [leavesEmission, hclk, noRst]
    obtain ⟨t, et, ht⟩ := step_of_idle_of_leavesEmission hin hst hleaves
    exact ⟨t, et, ht.st.trans hst, h.of_sameEmission ht (step_keeps_div hin hset h.mode et)⟩
  | true =>
    obtain ⟨hsel, hgate⟩ := hedge hclk
    rw [← fsSelect_takeInput] at hsel
    rw [← pgResult_takeInput] at hgate
    have start : DividerAt f e { takeInput s with pins := stim } :=
      ⟨(takeInput_mode s).trans h.mode, by simpa using h.pcnt, by simpa using h.out⟩
    have picked : dispatched .clkEdge { takeInput s with pins := stim } = .clkEdgeDiv := by
      rw [dispatched, clkVariant_eq, hsel, if_neg (by omega), if_neg (by omega), if_pos start.mode]
    obtain ⟨u, eu, ust, hu⟩ := exec_clkEdgeDiv_counts start hf hsel hgate
    have edges := performEdges_clk (r := requests { takeInput s with pins := stim }) (by rw [requests_takeInput, noRst])
      (by rw [requests_takeInput, hclk]) { takeInput s with pins := stim }
    rw [picked, eu] at edges
    obtain ⟨t, et, ht⟩ := step_of_idle hin hst edges
    exact ⟨t, et, ht.st.trans ust, hu.of_sameEmission ht (step_keeps_div hin hset h.mode et)⟩

/-- The ticks of R194's setting, one after another. -/
theorem run_dividerEdges {f n e k : Nat} {s : State} (hf : 1 < f) (hst : s.st = .idle) (h : DividerAt f e s)
    (hedges : dividerEdges f n s = some k) :
    ∃ t, runSteps n s = .next t ∧ t.st = .idle ∧ DividerAt f (e + k) t := by
  induction n generalizing e k s with
  | zero => cases hedges; exact ⟨s, rfl, hst, h⟩
  | succ n ih =>
    obtain ⟨stim, t, j, hin, et, htick, hrest, rfl⟩ := (dividerEdges_succ f n k s).1 hedges
    obtain ⟨t', et', tst, ht⟩ := step_of_dividerTick hin htick hf hst h
    cases et.symm.trans et'
    obtain ⟨u, eu, ust, hu⟩ := ih tst ht hrest
    exact ⟨u, (runSteps_succ_of_step et n).trans eu, ust, by rwa [Nat.add_comm j, ← Nat.add_assoc]⟩

/-- Settles O59: the run's clock edges are the divider's, counted from 0. -/
theorem dividerSequenceOverTicks : Obligations.DividerSequenceOverTicks := by
  intro s f n e hm hst hpcnt hf hedges
  obtain ⟨t, et, tst, ht⟩ := run_dividerEdges hf hst (dividerAt_zero f hm hpcnt) hedges
  rw [Nat.zero_add] at ht
  exact ⟨t, et, ht.mode, tst, ht.pcnt, ht.out⟩

end Sys2Proof.Machine
end

section
/-!
PROOF. Events of one tick (R215): the state in which a tick's clock edge is performed, and what the edge leaves whatever
timer tick, reset edge, mode write or poll is performed beside it; and the ModeController's clicks (R231).
-/

namespace Sys2Proof.Machine

open Sys2Proof.Config

/-! What the factor selector reads -/

/-- An instruction that is no variant of CLK_EDGE and asks for no mode leaves what the selector reads: the mode, the
ports, the parameters and the generator (R50, R139). -/
theorem exec_keeps_selector {i : Instr} (hclk : isClkEdge i = false) (hmode : modeAsked i = none) {s t : State}
    (h : exec i s = .next t) : t.mode = s.mode ∧ fsSelect t = fsSelect s := by
  have mode : t.mode = s.mode := by rw [exec_mode h, hmode, Option.getD_none]
  have same := exec_surroundings h
  exact ⟨mode, fsSelect_congr mode same.pins same.params (exec_keeps_selection hclk h).lfsr⟩

theorem fsSelect_countTimer (s : State) : fsSelect (countTimer s) = fsSelect s :=
  fsSelect_congr (by simp) (by simp) (by simp) (by simp)

/-- Neither the countdown nor TMR_TICK writes what the selector reads. -/
theorem fsSelect_timerPart (s : State) : fsSelect (timerPart s) = fsSelect s := by
  unfold timerPart
  split
  · exact (fsSelect_congr rfl rfl rfl rfl).trans (fsSelect_countTimer s)
  · exact fsSelect_countTimer s

/-! The clock edge of a tick -/

/-- A step leaves the emission as its edges do on the sampled state after the timer's part (R171). -/
theorem step_of_edges {stim : Stim} {s u : State} (hin : nextInput s = .tick stim)
    (hu : performEdges (requests { takeInput s with pins := stim }) (timerPart { takeInput s with pins := stim }) =
      .next u) :
    ∃ t, step s = .next t ∧ SameEmission u t := by
  obtain ⟨t, e, ht⟩ := opsAfterEdges_keep_emission (requests { takeInput s with pins := stim }) u
  refine ⟨endTick t, ?_, ht.trans (endTick_sameEmission t)⟩
  rw [step_tick hin, tick_eq_timerPart, ← timerPart_withPins, performAll_opsAfterTimer, hu, andThen_next, e,
    andThen_next]

/-- RST_EDGE, requested or not, leaves what the selector reads; in DIV mode it clears the count (R184, R185). -/
theorem rstEdge_before_clkEdge (b : Bool) (s : State) :
    ∃ v, (if b = true then exec (dispatched .rstEdge s) s else .next s) = .next v ∧ v.mode = s.mode ∧
      fsSelect v = fsSelect s ∧ (b = true → s.mode = .div → v.pcnt = 0) := by
  cases b with
  | false => exact ⟨s, rfl, rfl, rfl, fun h => nomatch h⟩
  | true =>
    obtain ⟨v, e, -⟩ := exec_completes (dispatched .rstEdge s) s
    have hmode : modeAsked (dispatched .rstEdge s) = none := modeAsked_dispatched .rstEdge s
    obtain ⟨mode, select⟩ := exec_keeps_selector (isClkEdge_dispatched (by decide) s) hmode e
    refine ⟨v, e, mode, select, fun _ hm => ?_⟩
    rw [dispatched, hm] at e
    cases e
    rfl

/-- In a step with a clock edge, CLK_EDGE is performed in a state `v` with the mode and the selection of the sampled
state, and the step leaves the emission as it does; a reset edge in DIV mode has cleared the count of `v`. -/
theorem step_of_clkEdge {stim : Stim} {s : State} (hin : nextInput s = .tick stim) (hclk : stim.clockIn = true)
    (hprev : s.prevClk = false) :
    ∃ v u t, step s = .next t ∧ exec (clkVariant (fsSelect v).1 v.mode) v = .next u ∧ SameEmission u t ∧
      v.mode = s.mode ∧ fsSelect v = fsSelect { takeInput s with pins := stim } ∧
      (stim.resetIn = true → s.prevRst = false → s.mode = .div → v.pcnt = 0) := by
  obtain ⟨v, ev, mode, select, reset⟩ := rstEdge_before_clkEdge (risingEdge stim.resetIn s.prevRst)
    (timerPart { takeInput s with pins := stim })
  rw [timerPart_mode, takeInput_mode] at mode reset
  obtain ⟨u, eu, -⟩ := exec_completes (clkVariant (fsSelect v).1 v.mode) v
  have clk : risingEdge stim.clockIn s.prevClk = true := (risingEdge_eq_true _ _).2 ⟨hclk, hprev⟩
  have edges : performEdges (requests { takeInput s with pins := stim })
      (timerPart { takeInput s with pins := stim }) = .next u := by
    rw [requests_takeInput, performEdges, ev, andThen_next, if_pos clk]
    exact eu
  obtain ⟨t, et, ht⟩ := step_of_edges hin edges
  exact ⟨v, u, t, et, eu, ht, mode, select.trans (fsSelect_timerPart _),
    fun hrst hprevRst => reset ((risingEdge_eq_true _ _).2 ⟨hrst, hprevRst⟩)⟩

/-! What a clock edge leaves -/

/-- A variant of CLK_EDGE that leaves the timer running has set the output HIGH and cleared the count (R178, R180,
R181). -/
theorem exec_clkEdge_running {i : Instr} (hi : isClkEdge i = true) {s t : State} (h : exec i s = .next t)
    (hst : t.st = .emit) : t.out = true ∧ t.pcnt = 0 := by
  cases i with
  | clkEdgeF1 | clkEdgeMult | clkEdgeMaxmult => cases h; exact ⟨rfl, rfl⟩
  | clkEdgeF0 => cases h; simp at hst
  | clkEdgeDiv => cases (execClkEdgeDiv_eq s).symm.trans h; simp at hst
  | nop | tmrTick | rstEdgeDiv | rstEdgeMult | rstEdgeMaxmult | modeSetDiv | modeSetMult | modeSetMaxmult | modeSetIgn
  | poll => cases hi

theorem exec_clkVariant_out_of_zero {f : BitVec 5} {m : Mode} (hf : f.toNat = 0) {s t : State}
    (h : exec (clkVariant f m) s = .next t) : t.out = false := by
  rw [clkVariant_eq, if_pos hf] at h
  cases h
  rfl

/-- Settles O53: after the clock edge only MODE_SET and POLL are performed, which leave the emission. -/
theorem clockEdgeHasTheFinalWord : Obligations.ClockEdgeHasTheFinalWord := by
  intro s stim hin hclk hprev f
  obtain ⟨v, u, t, et, eu, ht, mode, select, -⟩ := step_of_clkEdge hin hclk hprev
  have hedge := isClkEdge_clkVariant (fsSelect v).1 v.mode
  obtain ⟨u', eu', factor, -⟩ := exec_clkEdge_writes_selection hedge v
  cases eu.symm.trans eu'
  have st := exec_clkVariant_st eu
  rw [select, mode] at st
  have running (h0 : f.toNat ≠ 0) (h : f.toNat = 1 ∨ s.mode ≠ .div) :
      t.out = true ∧ t.pcnt = 0 ∧ t.st = .emit := by
    rw [if_neg (not_or.2 ⟨h0, fun ⟨h1, hm⟩ => h.elim h1 (absurd hm)⟩)] at st
    obtain ⟨out, pcnt⟩ := exec_clkEdge_running hedge eu st
    exact ⟨ht.out.trans out, ht.pcnt.trans pcnt, ht.st.trans st⟩
  refine ⟨t, et, by rw [ht.factor, factor, select], fun h0 => ?_, fun h1 => ?_, fun hf hm => ?_, fun hf hm => ?_⟩
  · rw [if_pos (.inl h0)] at st
    exact ⟨ht.out.trans (exec_clkVariant_out_of_zero (select ▸ h0) eu), ht.st.trans st⟩
  · exact running (by omega) (.inl h1)
  · exact running (by omega) (.inr hm)
  · rw [if_pos (.inr ⟨hf.ne', hm⟩)] at st
    exact ht.st.trans st

/-- The first edge the divider counts is below a factor above 1, whatever the gate decides (R179). -/
theorem exec_clkEdgeDiv_of_pcnt_zero {s : State} (hpcnt : s.pcnt = 0) (hf : 1 < (fsSelect s).1.toNat) :
    ∃ t, exec .clkEdgeDiv s = .next t ∧ t.out = false ∧ t.pcnt = 1 ∧ t.st = .idle := by
  obtain ⟨-, edge⟩ := clkEdgeDivCountsEdges s
  have count : min (s.pcnt.toNat + 1) 255 = 1 := by rw [hpcnt]; rfl
  simp only [count, decide_eq_false hf.not_ge, Bool.and_false, Bool.false_eq_true, if_false] at edge
  exact ⟨_, edge, rfl, rfl, rfl⟩

/-- Settles O54: the clock edge is performed after the reset edge has cleared the count. -/
theorem resetThenClockEdgeCountsAsOne : Obligations.ResetThenClockEdgeCountsAsOne := by
  intro s stim hin hclk hprev hrst hprevRst hm hf
  obtain ⟨v, u, t, et, eu, ht, mode, select, reset⟩ := step_of_clkEdge hin hclk hprev
  rw [← select] at hf
  have picked : clkVariant (fsSelect v).1 v.mode = .clkEdgeDiv := by
    rw [clkVariant_eq, if_neg (by omega), if_neg (by omega), if_pos (mode.trans hm)]
  obtain ⟨u', eu', out, pcnt, st⟩ := exec_clkEdgeDiv_of_pcnt_zero (reset hrst hprevRst hm) hf
  rw [picked] at eu
  cases eu.symm.trans eu'
  exact ⟨t, et, ht.out.trans out, ht.pcnt.trans pcnt, ht.st.trans st⟩

/-! The ModeController's clicks -/

theorem click1_of_div {c : Trace.Controller} (h : c.mode = .div) :
    c.click1 = (c.lastMult, { mode := c.lastMult, lastMult := c.lastMult }) := by
  rw [Trace.Controller.click1, h]

theorem click1_of_ne_div {c : Trace.Controller} (h : c.mode ≠ .div) :
    c.click1 = (.div, { mode := .div, lastMult := c.mode }) := by
  obtain ⟨mode, lastMult⟩ := c
  cases mode with
  | div => exact absurd rfl h
  | mult | maxMult => rfl

/-- Settles O48: the second of two single clicks is one in DIV mode, with the mode left by the first remembered. -/
theorem clickRules : Obligations.ClickRules := by
  intro c
  refine ⟨fun h => ⟨click1_of_div h, ?_⟩, fun h => ⟨click1_of_ne_div h, ?_⟩, fun h => ?_, fun h => ?_⟩
  · rw [Trace.Controller.click2, h]
  · rw [click1_of_ne_div h, click1_of_div rfl]
  · rw [Trace.Controller.click2, h]
  · rw [Trace.Controller.click2, h]

end Sys2Proof.Machine
end

section
/-!
PROOF. How far a tick moves the generator with the MODULO method (R70, R258 (b)): the selector's draw and the gate's are
the only two, and of a tick's operations only CLK_EDGE makes them.
-/

namespace Sys2Proof.Machine

open Sys2Proof.Config

/-! The draws of a clock edge -/

/-- With MODULO the gate makes one draw of seven bits (R155, R160). -/
theorem gateDraw_lfsr_modulo {s : State} (hmod : s.params.rangeMethod = .modulo) :
    (gateDraw s).2 = (rngBits s.params.rngStep 7 s.lfsr).2 := by
  rw [gateDraw, rngRange_modulo hmod]

/-- With MODULO a variant of CLK_EDGE that consults the gate moves the generator seven steps on from where the selector
left it; any other leaves it there (R176 to R181). -/
theorem exec_clkEdge_lfsr {i : Instr} (hi : isClkEdge i = true) {s t : State} (h : exec i s = .next t)
    (hmod : s.params.rangeMethod = .modulo) :
    t.lfsr = if consultsGate i = true then (rngBits s.params.rngStep 7 (fsSelect s).2).2 else (fsSelect s).2 := by
  have params := clkCommon_params s
  obtain ⟨-, lfsr⟩ := clkCommon_selects s
  have gate (u : State) (hp : u.params = s.params) (hl : u.lfsr = (fsSelect s).2) :
      (pgDecide u).lfsr = (rngBits s.params.rngStep 7 (fsSelect s).2).2 := by
    rw [pgDecide_lfsr, gateDraw_lfsr_modulo (hp ▸ hmod), hp, hl]
  cases i with
  | clkEdgeDiv => cases (execClkEdgeDiv_eq s).symm.trans h; exact gate _ params lfsr
  | clkEdgeMult => cases h; exact gate _ params lfsr
  | clkEdgeF0 | clkEdgeF1 | clkEdgeMaxmult => cases h; exact lfsr
  | nop | tmrTick | rstEdgeDiv | rstEdgeMult | rstEdgeMaxmult | modeSetDiv | modeSetMult | modeSetMaxmult | modeSetIgn
  | poll => cases hi

/-- The gate is consulted with a factor above 1 outside MAX_MULT mode (R176, R179, R180). -/
theorem consultsGate_clkVariant (f : BitVec 5) (m : Mode) :
    consultsGate (clkVariant f m) = true ↔ 1 < f.toNat ∧ m ≠ .maxMult := by
  rw [clkVariant_eq]
  by_cases h0 : f.toNat = 0
  · simp [h0, consultsGate]
  · by_cases h1 : f.toNat = 1
    · simp [h1, consultsGate]
    · have hf : 1 < f.toNat := by omega
      cases m <;> simp [h0, h1, hf, consultsGate]

/-- The generator steps of a clock edge with MODULO, by the selected factor and the mode (R258 (b)). -/
def clkEdgeSteps (f : BitVec 5) : Mode → Nat
  | .maxMult => 4
  | .mult | .div => if 1 < f.toNat then 7 else 0

/-- The selector draws in MAX_MULT mode alone, the gate in the two others alone, so no clock edge makes both draws. -/
theorem exec_clkVariant_lfsr {s t : State} (h : exec (clkVariant (fsSelect s).1 s.mode) s = .next t)
    (hmod : s.params.rangeMethod = .modulo) :
    t.lfsr = (rngBits s.params.rngStep (clkEdgeSteps (fsSelect s).1 s.mode) s.lfsr).2 := by
  have lfsr := exec_clkEdge_lfsr (isClkEdge_clkVariant _ _) h hmod
  simp only [consultsGate_clkVariant] at lfsr
  rw [lfsr]
  cases hm : s.mode with
  | maxMult =>
    obtain ⟨-, draw⟩ := maxMultFactorIsDrawn s hm
    obtain ⟨-, four⟩ := draw hmod
    rw [if_neg fun ⟨_, hne⟩ => hne rfl, four, clkEdgeSteps]
  | mult | div =>
    rw [fsSelect_lfsr (by simp [hm]), clkEdgeSteps]
    by_cases hf : 1 < (fsSelect s).1.toNat
    · rw [if_pos ⟨hf, by decide⟩, if_pos hf]
    · rw [if_neg fun ⟨hlt, _⟩ => hf hlt, if_neg hf, rngBits_zero]

/-! The clock edge of a tick -/

@[simp] theorem timerPart_params (s : State) : (timerPart s).params = s.params := by
  unfold timerPart
  split <;> simp [tmrTicked]

@[simp] theorem timerPart_lfsr (s : State) : (timerPart s).lfsr = s.lfsr := by
  unfold timerPart
  split <;> simp [tmrTicked]

/-- RST_EDGE, requested or not, leaves the generator and its parameters. -/
theorem rstEdge_keeps_generator {b : Bool} {s t : State}
    (h : (if b = true then exec (dispatched .rstEdge s) s else .next s) = .next t) :
    t.params = s.params ∧ t.lfsr = s.lfsr := by
  cases b with
  | false => cases h; exact ⟨rfl, rfl⟩
  | true =>
    exact ⟨(exec_surroundings h).params, (exec_keeps_selection (isClkEdge_dispatched (by decide) s) h).lfsr⟩

/-- With MODULO the edges of a tick that has a clock edge move the generator by that edge's steps. -/
theorem performEdges_lfsr {r : Requests} (hclk : r.clk = true) {s : State} (hmod : s.params.rangeMethod = .modulo) :
    ∃ u, performEdges r s = .next u ∧
      u.lfsr = (rngBits s.params.rngStep (clkEdgeSteps (fsSelect s).1 s.mode) s.lfsr).2 := by
  obtain ⟨v, ev, mode, select, -⟩ := rstEdge_before_clkEdge r.rst s
  obtain ⟨params, lfsr⟩ := rstEdge_keeps_generator ev
  obtain ⟨u, eu, -⟩ := exec_completes (clkVariant (fsSelect v).1 v.mode) v
  refine ⟨u, ?_, ?_⟩
  · rw [performEdges, ev, andThen_next, if_pos hclk]
    exact eu
  · rw [exec_clkVariant_lfsr eu (params ▸ hmod), mode, select, params, lfsr]

/-- With MODULO a step with a clock edge moves the generator by that edge's steps, the factor being the one selected on
the sampled ports. -/
theorem step_of_clkEdge_lfsr {stim : Stim} {s : State} (hin : nextInput s = .tick stim)
    (hedge : stim.clockIn = true ∧ s.prevClk = false) (hmod : s.params.rangeMethod = .modulo) :
    ∃ t, step s = .next t ∧ t.lfsr =
      (rngBits s.params.rngStep (clkEdgeSteps (fsSelect { takeInput s with pins := stim }).1 s.mode) s.lfsr).2 := by
  have clk : (requests { takeInput s with pins := stim }).clk = true := by
    rw [requests_takeInput]
    exact (risingEdge_eq_true _ _).2 hedge
  obtain ⟨u, edges, lfsr⟩ := performEdges_lfsr clk (s := timerPart { takeInput s with pins := stim }) (by simpa)
  obtain ⟨t, et, ht⟩ := step_of_edges hin edges
  refine ⟨t, et, ?_⟩
  rw [ht.lfsr, lfsr, fsSelect_timerPart]
  simp only [timerPart_params, timerPart_lfsr, timerPart_mode, takeInput_params, takeInput_lfsr, takeInput_mode]

/-- Settles O42: only CLK_EDGE draws, and its steps are those of the mode and of the factor it selects. -/
theorem generatorStepsPerTick : Obligations.GeneratorStepsPerTick := by
  intro s stim hin hmod sampled drawn
  by_cases hedge : stim.clockIn = true ∧ s.prevClk = false
  · obtain ⟨t, et, lfsr⟩ := step_of_clkEdge_lfsr hin hedge hmod
    have steps : drawn = clkEdgeSteps (fsSelect sampled).1 s.mode := by
      simp only [drawn, if_pos hedge]
      cases s.mode <;> rfl
    exact ⟨t, et, by rw [steps, lfsr]⟩
  · have hno : stim.clockIn = false ∨ s.prevClk = true := by simpa [imp_iff_not_or] using hedge
    obtain ⟨t, et, -, -, -, -, lfsr, -⟩ := withoutAClockEdgeNothingIsSelected s stim hin hno
    have steps : drawn = 0 := if_neg hedge
    exact ⟨t, et, by rw [steps, lfsr, rngBits_zero]⟩

end Sys2Proof.Machine
end
